-- ==== Sys2Proof/Word.lean ====
section
/-! DEFINITION. The byte and the line level, the two data types the spec's rules move about (R10, R23, R70). -/

namespace Sys2Proof

/-- Eight bits: a byte of a Frame Buffer, the accumulator, the mask, a command word or an internal code. -/
abbrev Byte := BitVec 8

/-- A line level is one bit (R10, R70): `high` is 1, `low` is 0. -/
inductive Level where
  | low
  | high
  deriving DecidableEq, Repr

/-- The bit a level stands for (R70). -/
def Level.toBit : Level → Bool
  | .low => false
  | .high => true

/-- The level a bit stands for (R70). -/
def Level.ofBit (b : Bool) : Level := if b then .high else .low

@[simp] theorem Level.ofBit_toBit (l : Level) : Level.ofBit l.toBit = l := by cases l <;> rfl

@[simp] theorem Level.toBit_ofBit (b : Bool) : (Level.ofBit b).toBit = b := by cases b <;> rfl

end Sys2Proof
end

