-- ==== Sys2Proof/Config.lean ====
section
/-! DEFINITION. The configuration: the parameters of R7, each a field with the source's default. -/

namespace Sys2Proof

/-- The implementation parameters of R7. `BAUD` and `TICK_HZ` have no default in the spec (D11); every other field has
the table's. `K_MID` is a field of its own whose default is computed (D6). `TPB` and `T_IFS` are computed (R8). -/
structure Config where
  /-- `BAUD`, bits per second. -/
  baud : Nat
  /-- `TICK_HZ`, ticks of the Tick Source per second. -/
  tickHz : Nat
  /-- `QCAP`, capacity of the Frame Queue in Frame Buffers. -/
  qcap : Nat := 8
  /-- `FMAX`, maximum frame length in bytes. -/
  fmax : Nat := 11
  /-- `FMIN`, minimum valid frame length in bytes. -/
  fmin : Nat := 4
  /-- `BRK_N`, break threshold in consecutive low samples. -/
  brkN : Nat := 10
  /-- `T_BRK`, timeout in ticks of the wait for the end of the break. -/
  tBrk : Nat := 255
  /-- `T_START`, timeout in ticks of the wait for the first start bit. -/
  tStart : Nat := 255
  /-- `IFS_BITS`, inter-byte timeout in bit periods. -/
  ifsBits : Nat := 4
  /-- `PRECALL`, pre-call compensation in ticks. -/
  precall : Nat := 2
  /-- `K_MID`, offset in ticks from a start-bit edge to the start-bit sample. -/
  kMid : Nat := tickHz / baud / 2 + precall
  /-- `TICK_W`, width of the Tick Source counter in bits. -/
  tickW : Nat := 32
  /-- `OPT_TAKE_ERRORS`: the atomic fetch-and-clear operation is present. -/
  optTakeErrors : Bool := false
  deriving DecidableEq, Repr

/-- Ticks per bit, `TPB = TICK_HZ / BAUD`, unsigned and truncating (R8). -/
def Config.tpb (c : Config) : Nat := c.tickHz / c.baud

/-- The inter-byte timeout in ticks, `T_IFS = IFS_BITS * TPB` (R8). -/
def Config.tIfs (c : Config) : Nat := c.ifsBits * c.tpb

/-- DESIGN CHOICE (log 2), unsafe: the configuration State.reset holds. The spec gives no baud rate and no tick rate
(D11); 9600 is the lowest rate the source calls tested, and the tick rate makes `TPB = 16`, as in the spec's vectors
(R212). Every other field has the default of R7. -/
def Config.default : Config := { baud := 9600, tickHz := 153600 }

end Sys2Proof
end

