-- ==== Sys2Proof/Syntax.lean ====
section
/-! DEFINITION. The operations of the core: one constructor per row of spec/opcode_table.json (R75, R79). -/

namespace Sys2Proof

/-- The five protocol errors (R171). -/
inductive Cause where
  /-- Cause 1: the start-bit sample reads high. -/
  | startFraming
  /-- Cause 2: the stop-bit sample reads low. -/
  | stopFraming
  /-- Cause 3: fewer than FMIN bytes at the inter-byte timeout. -/
  | frameShort
  /-- Cause 4: a start bit after FMAX bytes. -/
  | frameLong
  /-- Cause 5: the queue was full at a commit. -/
  | overrun
  deriving DecidableEq, Repr

/-- The cause numbers of R171, as the three bits of RAISE_FRAME_ERROR's field (R79). -/
def Cause.code : Cause → BitVec 3
  | .startFraming => 1
  | .stopFraming => 2
  | .frameShort => 3
  | .frameLong => 4
  | .overrun => 5

/-- The outcome of a bounded wait (R110). -/
inductive WaitResult where
  | ok
  | fail
  deriving DecidableEq, Repr

/-- What the callback does when its wait ends, the values of `w_cont` (R22, R115). The code 3 is never held, so it
has no constructor. -/
inductive WaitCont where
  | brkHigh
  | startLow
  | ifsLow
  deriving DecidableEq, Repr

/-- The operations: six the port can present (R75) and nineteen actions of the producer (R79). Only TICK and
RAISE_FRAME_ERROR have an operand in their word; the other actions' operands stand in `Machine.State.uop`. -/
inductive Instr where
  -- port operations (R75)
  | init
  | tick (l : Level)
  | readNextFrame
  | hasErrors
  | clearErrors
  | takeErrors
  -- internal actions (R79)
  | callback
  | dbSample
  | rdEntry
  | rdAlign
  | rdStartSample
  | rdDataSample
  | rdStopSample
  | rdIfsResolve
  | dbEntry
  | dbBreakEnd
  | qCommit
  | handoff
  | waitLow
  | waitHigh
  | waitPoll
  | tsNow
  | tsResetPeriod
  | tsScheduleNext
  | raiseFrameError (c : Cause)
  deriving DecidableEq, Repr

/-- A port operation, in the sense of R12 and R75: what a step of a run can be. The others are the producer's internal
actions (R79), which TICK runs. -/
def Instr.isPort : Instr → Bool
  | .init | .tick _ | .readNextFrame | .hasErrors | .clearErrors | .takeErrors => true
  | .callback | .dbSample | .rdEntry | .rdAlign | .rdStartSample | .rdDataSample | .rdStopSample
  | .rdIfsResolve | .dbEntry | .dbBreakEnd | .qCommit | .handoff | .waitLow | .waitHigh | .waitPoll
  | .tsNow | .tsResetPeriod | .tsScheduleNext | .raiseFrameError _ => false

end Sys2Proof
end

