-- ==== Sys2Proof/WellFormed.lean ====
section
/-! DEFINITION. The well-formedness checks: of a configuration (R7, R9) and of an operation under one (R75, R77). -/

namespace Sys2Proof

/-- A configuration is well formed when every constraint of R7's table holds (R9). `PRECALL >= 0` holds of every
natural number. -/
abbrev Config.WF (c : Config) : Prop :=
  1 ≤ c.baud ∧ c.baud ≤ c.tickHz ∧ 1 ≤ c.tpb ∧ 2 ≤ c.qcap ∧ c.fmin ≤ c.fmax ∧ 1 ≤ c.fmin ∧ 1 ≤ c.brkN ∧
  c.tBrk < 2 ^ c.tickW ∧ c.tStart < 2 ^ c.tickW ∧ c.tIfs < 2 ^ c.tickW ∧ 1 ≤ c.kMid ∧ 9 ≤ c.tickW

/-- An operation exists in a configuration: TAKE_ERRORS only when `OPT_TAKE_ERRORS` is true (R75, R77, R163), every
other always. -/
def Instr.WF (c : Config) : Instr → Bool
  | .takeErrors => c.optTakeErrors
  | .init | .tick _ | .readNextFrame | .hasErrors | .clearErrors
  | .callback | .dbSample | .rdEntry | .rdAlign | .rdStartSample | .rdDataSample | .rdStopSample
  | .rdIfsResolve | .dbEntry | .dbBreakEnd | .qCommit | .handoff | .waitLow | .waitHigh | .waitPoll
  | .tsNow | .tsResetPeriod | .tsScheduleNext | .raiseFrameError _ => true

end Sys2Proof
end

