-- ==== Sys2Proof/Decode.lean ====
section
/-! DEFINITION. The decoder of command words and internal codes, total on every word and rejecting by name (R74 to
R80), and after it the encoder. -/

namespace Sys2Proof

/-- Why a word spells no operation (R77, R80). -/
inductive Reject where
  /-- `cmd[7] = 1` on the port: internal codes are never accepted there (R77, R79). -/
  | internalOnPort
  /-- `cmd[6:4]` is 6 or 7 (R77). -/
  | reservedOp
  /-- `cmd[3:1]` is not 000 (R77). -/
  | mustBeZero
  /-- A P0 word with `cmd[0] = 1` (R77). -/
  | operandBit
  /-- `0x50` when `OPT_TAKE_ERRORS` is false (R77). -/
  | optionAbsent
  /-- An internal code outside the table of R79 (R80). -/
  | unusedCode
  deriving DecidableEq, Repr

/-- Reads a word with bit 7 clear: first `cmd[6:4]`, then the must-be-zero bits (R78). Whether the configuration has
TAKE_ERRORS is `decodePort`'s question. -/
def decodeOp (w : Byte) : Except Reject Instr :=
  let op := w.extractLsb' 4 3
  if op = 6 ∨ op = 7 then .error .reservedOp
  else if w.extractLsb' 1 3 ≠ 0 then .error .mustBeZero
  else if op = 1 then .ok (.tick (Level.ofBit (w[0])))
  else if w[0] then .error .operandBit
  else if op = 0 then .ok .init
  else if op = 2 then .ok .readNextFrame
  else if op = 3 then .ok .hasErrors
  else if op = 4 then .ok .clearErrors
  else .ok .takeErrors

/-- Reads a cause field `c = code[2:0]`, in 1..5 (R79, R80). -/
def decodeCause (c : BitVec 3) : Except Reject Cause :=
  match c with
  | 1#3 => .ok .startFraming
  | 2#3 => .ok .stopFraming
  | 3#3 => .ok .frameShort
  | 4#3 => .ok .frameLong
  | 5#3 => .ok .overrun
  | _ => .error .unusedCode

/-- Reads an internal code, a word with bit 7 set (R79, R80). -/
def decodeCode (w : Byte) : Except Reject Instr :=
  match w with
  | 0x80#8 => .ok .callback
  | 0x81#8 => .ok .dbSample
  | 0x82#8 => .ok .rdEntry
  | 0x83#8 => .ok .rdAlign
  | 0x84#8 => .ok .rdStartSample
  | 0x85#8 => .ok .rdDataSample
  | 0x86#8 => .ok .rdStopSample
  | 0x87#8 => .ok .rdIfsResolve
  | 0x88#8 => .ok .dbEntry
  | 0x89#8 => .ok .dbBreakEnd
  | 0x8A#8 => .ok .qCommit
  | 0x8B#8 => .ok .handoff
  | 0x8C#8 => .ok .waitLow
  | 0x8D#8 => .ok .waitHigh
  | 0x8E#8 => .ok .waitPoll
  | 0x8F#8 => .ok .tsNow
  | 0x90#8 => .ok .tsResetPeriod
  | 0x91#8 => .ok .tsScheduleNext
  | w =>
    if w.extractLsb' 3 5 = 0b10100#5 then
      match decodeCause (w.extractLsb' 0 3) with
      | .ok c => .ok (.raiseFrameError c)
      | .error r => .error r
    else .error .unusedCode

/-- Reads any word of the opcode table, port command or internal code, by bit 7 (R74, R79). -/
def decode (w : Byte) : Except Reject Instr :=
  if w[7] then decodeCode w else decodeOp w

/-- Reads a word presented on the port of a core with configuration `c`: internal codes and, without the option,
TAKE_ERRORS are reserved there (R77). -/
def decodePort (c : Config) (w : Byte) : Except Reject Instr :=
  if w[7] then .error .internalOnPort
  else
    match decodeOp w with
    | .ok i => if i.WF c then .ok i else .error .optionAbsent
    | .error r => .error r

/-- Reads a word presented as an internal code: it has bit 7 set (R79), and an unused code is no operation (R80). -/
def decodeInternal (w : Byte) : Except Reject Instr :=
  if w[7] then decodeCode w else .error .unusedCode

/-- The word of an operation, from the tables of R75 and R79. -/
def encode : Instr → Byte
  | .init => 0x00
  | .tick .low => 0x10
  | .tick .high => 0x11
  | .readNextFrame => 0x20
  | .hasErrors => 0x30
  | .clearErrors => 0x40
  | .takeErrors => 0x50
  | .callback => 0x80
  | .dbSample => 0x81
  | .rdEntry => 0x82
  | .rdAlign => 0x83
  | .rdStartSample => 0x84
  | .rdDataSample => 0x85
  | .rdStopSample => 0x86
  | .rdIfsResolve => 0x87
  | .dbEntry => 0x88
  | .dbBreakEnd => 0x89
  | .qCommit => 0x8A
  | .handoff => 0x8B
  | .waitLow => 0x8C
  | .waitHigh => 0x8D
  | .waitPoll => 0x8E
  | .tsNow => 0x8F
  | .tsResetPeriod => 0x90
  | .tsScheduleNext => 0x91
  | .raiseFrameError c => 0b10100#5 ++ c.code

/-- The word an instruction of the opcode table has when the host numbers its bits: every row is one 8-bit word, so a
number that does not fit in eight bits is no instruction. -/
def tableWord (nbits w : Nat) : Option Byte :=
  if w % 2 ^ nbits < 256 then some (BitVec.ofNat 8 (w % 2 ^ nbits)) else none

/-- The operation the decoder reads from an instruction whose bits are `w` (the host's fixed name). -/
def decodeTableWord (nbits w : Nat) : Option Instr :=
  match tableWord nbits w with
  | none => none
  | some b =>
    match decode b with
    | .ok i => some i
    | .error _ => none

end Sys2Proof
end

