-- ==== Sys2Proof/Machine/State.lean ====
section
/-! DEFINITION. The state of the core as plain data (R20 to R25), the model's own fields beside it, the reasons a step
can stop, and the state after reset. -/

namespace Sys2Proof.Machine

/-- The two states of the Receiver State Machine (R21). -/
inductive RxState where
  | detectBreak
  | readData
  deriving DecidableEq, Repr

/-- `WAIT` while a wait primitive is polling (R22). -/
inductive Phase where
  | idle
  | wait
  deriving DecidableEq, Repr

/-- A Frame Buffer: the count of valid bytes and `FMAX` bytes (R23). The bytes at or beyond `count` are undefined
(R36): no operation returns them. -/
structure FrameBuffer where
  count : Nat
  bytes : List Byte
  deriving DecidableEq, Repr

/-- An empty Frame Buffer of `n` bytes, as INIT leaves it (R200). -/
def FrameBuffer.empty (n : Nat) : FrameBuffer := { count := 0, bytes := List.replicate n 0x00 }

/-- The operands of an internal action run by itself. Their codes have no field for them (R79). -/
structure MicroOperands where
  /-- `Line()`, the line level of the current tick, which is also the sample (R11, R120). -/
  line : Level
  /-- The outcome of the wait a continuation resumes from (R115). -/
  res : WaitResult
  /-- The bound of WAIT_LOW and WAIT_HIGH, in ticks (R112). -/
  max : Nat
  /-- The continuation of WAIT_LOW and WAIT_HIGH (R112). -/
  cont : WaitCont
  /-- The offset of TS_SCHEDULE_NEXT, in ticks (R104). -/
  k : Nat
  deriving DecidableEq, Repr

/-- One request of the outside world, the input of one step (R12, R20). -/
inductive Request where
  /-- A command word presented on the port (R74). -/
  | port (cmd : Byte)
  /-- DESIGN CHOICE (log 5), safe: one internal action by itself, by its code and operands. No port presents one
  (R79); a run of the core has none. -/
  | internal (code : Byte) (ops : MicroOperands)
  deriving DecidableEq, Repr

/-- What an operation returned to its caller (R81, R102). -/
inductive OpResult where
  /-- The operation returns nothing. -/
  | nothing
  /-- READ_NEXT_FRAME: "no frame available". -/
  | noFrame
  /-- READ_NEXT_FRAME: the count and the first `count` bytes. -/
  | frame (count : Nat) (bytes : List Byte)
  /-- HAS_ERRORS, TAKE_ERRORS: one bit. -/
  | bit (b : Bool)
  /-- TS_NOW: the Tick Source counter. -/
  | ticks (n : Nat)
  deriving DecidableEq, Repr

/-- The state. The fields down to `now` are the elements of R21 to R25, each with one home; `cfg`, `pending`, `uop`,
`result` and `trace` are the model's own (logs 1, 4, 5, 8 and 9). -/
structure State where
  -- R21: the Receiver State Machine
  /-- `rx_state`. -/
  rxState : RxState
  /-- `low_cnt`: consecutive low samples in `DetectBreak`. -/
  lowCnt : Nat
  /-- `bytes_read`: bytes completed in the current frame. -/
  bytesRead : Nat
  /-- `bit_cnt`: sample index inside the current character. -/
  bitCnt : Nat
  /-- `acc`: the byte being assembled. -/
  acc : Byte
  /-- `mask`: the bit position of the next data bit. -/
  mask : Byte
  -- R22: the producer sequencer
  /-- `cd`: ticks left until the next callback fires. -/
  cd : Nat
  /-- `phase`. -/
  phase : Phase
  /-- `w_level`: the level the open wait looks for. -/
  wLevel : Level
  /-- `w_base`: the counter when the open wait began. -/
  wBase : Nat
  /-- `w_max`: the bound of the open wait. -/
  wMax : Nat
  /-- `w_cont`: what the callback does when the wait ends. -/
  wCont : WaitCont
  -- R23: the Frame Queue
  /-- `slot[0..QCAP-1]`. -/
  slots : List FrameBuffer
  /-- `head`: the next write slot, also the slot being assembled. -/
  head : Nat
  /-- `tail`: the next read slot. -/
  tail : Nat
  -- R24: shared between producer and consumer
  /-- `mb.flag`: the Mailbox holds a frame the consumer has not claimed (R27). -/
  mbFlag : Bool
  /-- `mb.frame`. -/
  mbFrame : FrameBuffer
  /-- `err`: the sticky Error Flag (R26). -/
  err : Bool
  -- R25: platform state
  /-- `now`: the Tick Source counter. -/
  now : Nat
  -- the model's own fields
  /-- The configuration, a parameter of every step (R20). No operation writes it. -/
  cfg : Config
  /-- The requests presented and not yet taken, oldest first (R12, R20). -/
  pending : List Request
  /-- The operands of an internal action run by itself. -/
  uop : MicroOperands
  /-- What the last operation returned (R81). -/
  result : OpResult
  /-- The event trace: the FrameErrors raised, oldest first (R172). No operation reads it. -/
  trace : List Cause
  deriving DecidableEq, Repr

/-- Why a step stops where the spec's storage has nothing to act on. The core itself has no fault (R170): each of
these is met only in states outside the legal values of R21 to R23, which no run reaches. -/
inductive Fault where
  /-- RD_ENTRY, RD_STOP_SAMPLE, RD_IFS_RESOLVE, HANDOFF and what runs them: slot `i` does not exist (R23). Safe. -/
  | noSlot (i : Nat)
  /-- RD_STOP_SAMPLE and what runs it: the head slot has no byte `n` to append to (R31). Safe. -/
  | noByte (n : Nat)
  /-- TICK: the countdown is 0, which R101 says it never is between operations. Safe. -/
  | countdownZero
  deriving DecidableEq, Repr

/-- Why a step has no meaning. -/
inductive Refusal where
  /-- An arm of exec without its meaning. No arm is left so. Safe. -/
  | notModelled (mnemonic : String)
  /-- step: the word presented on the port is reserved (R77). This outcome is the spec's sticky refusal mark
  (log 7). Safe. -/
  | reservedWord (w : Byte) (why : Reject)
  /-- step: an internal request with an unused code (R80). Safe. -/
  | unusedCode (w : Byte)
  /-- Every operation: the configuration breaks a constraint of R7 and has no meaning (R9). Safe. -/
  | illFormedConfig
  /-- TAKE_ERRORS: the core does not have the operation (R163). Safe. -/
  | optionAbsent
  /-- TS_SCHEDULE_NEXT: the offset is 0, outside the operand's range (R104). Safe. -/
  | zeroOffset
  /-- WAIT_LOW, WAIT_HIGH: the bound does not fit in `TICK_W` bits, outside the operand's range (R112). Safe. -/
  | boundTooLarge
  deriving DecidableEq, Repr

/-- DESIGN CHOICE (log 5), safe: operands as the core's own call sites supply them, with the line high. -/
def MicroOperands.callSite (c : Config) : MicroOperands :=
  { line := .high, res := .ok, max := c.tStart, cont := .startLow, k := c.kMid }

/-- The state INIT leaves on a core of configuration `c` whose Tick Source counter reads `now0`, with nothing
presented, returned or recorded yet. Power-on has the same effect as INIT (R202). -/
def State.powerOn (c : Config) (now0 : Nat) : State :=
  { rxState := .detectBreak, lowCnt := 0, bytesRead := 0, bitCnt := 0, acc := 0x00, mask := 0x01,
    cd := c.tpb, phase := .idle, wLevel := .low, wBase := 0, wMax := 0, wCont := .brkHigh,
    slots := List.replicate c.qcap (FrameBuffer.empty c.fmax), head := 0, tail := 0,
    mbFlag := false, mbFrame := FrameBuffer.empty c.fmax, err := false, now := now0,
    cfg := c, pending := [], uop := MicroOperands.callSite c, result := .nothing, trace := [] }

/-- The machine right after reset. DESIGN CHOICE (logs 2 and 3), unsafe: the configuration and the draw `NOW0 = 0`
(R25), both open in the spec. -/
def State.reset : State := State.powerOn Config.default 0

end Sys2Proof.Machine
end

