-- ==== Sys2Proof/Machine/Flags.lean ====
section
/-! DEFINITION. The two flags (R26, R27): every write of them goes through one of these. -/

namespace Sys2Proof.Machine

/-- `err <- 1`; if it is already 1 it stays 1 (R26, R172). -/
def setErr (s : State) : State := { s with err := true }

/-- `err <- 0` (R162, R163). -/
def clearErr (s : State) : State := { s with err := false }

/-- `mb.flag <- 1`, the write that publishes the Mailbox frame (R152). -/
def setMbFlag (s : State) : State := { s with mbFlag := true }

/-- `mb.flag <- 0`, after the copy (R160). -/
def clearMbFlag (s : State) : State := { s with mbFlag := false }

end Sys2Proof.Machine
end

