-- ==== Sys2Proof/Machine/Operands.lean ====
section
/-! DEFINITION. The operand forms: the line level of TICK (R76) and the operands an internal action run by itself takes
from `uop` (R79, R104, R112). -/

namespace Sys2Proof.Machine

/-- `Line()` for an internal action run by itself: the level presented with it (R11). -/
def lineOperand (s : State) : Level := s.uop.line

/-- The outcome a continuation run by itself is given (R115). -/
def resOperand (s : State) : WaitResult := s.uop.res

/-- The continuation of a wait run by itself (R112). -/
def contOperand (s : State) : WaitCont := s.uop.cont

/-- The bound of a wait run by itself; it is less than `2^TICK_W` (R112). -/
def maxOperand (s : State) : Except Refusal Nat :=
  if s.uop.max < 2 ^ s.cfg.tickW then .ok s.uop.max else .error .boundTooLarge

/-- The offset of TS_SCHEDULE_NEXT run by itself; it is at least 1, and a model refuses 0 (R104). -/
def offsetOperand (s : State) : Except Refusal Nat :=
  if 1 ≤ s.uop.k then .ok s.uop.k else .error .zeroOffset

end Sys2Proof.Machine
end

