-- ==== Sys2Proof/Machine/Ops.lean ====
section
/-! DEFINITION. The shared operations: sequencing, storage access, the Tick Source primitives (R102 to R106), raising a
protocol error (R172) and the return to DetectBreak (R123). -/

namespace Sys2Proof.Machine

/-- The outcome of an operation. -/
abbrev Res := Host.Outcome State Fault Refusal

/-- Does `k` in the state `r` leaves; a fault or a refusal ends the operation. -/
def andThen (r : Res) (k : State → Res) : Res :=
  match r with
  | .next s => k s
  | .fault f => .fault f
  | .refused x => .refused x

/-- The state with `r` as what the operation returns (R81). -/
def returning (r : OpResult) (s : State) : State := { s with result := r }

/-- Performs an operation on a core whose configuration is well formed; any other configuration is refused (R9). The
operation returns nothing unless `act` says otherwise. -/
def perform (act : State → Res) (s : State) : Res :=
  if s.cfg.WF then act (returning .nothing s) else .refused .illFormedConfig

/-- Does `act` with an operand, or refuses as the operand does. -/
def withOperand (x : Except Refusal Nat) (act : Nat → Res) : Res :=
  match x with
  | .ok n => act n
  | .error r => .refused r

/-- Does `k` with Frame Buffer `i` of the queue. A slot that does not exist faults (R23). -/
def withSlot (s : State) (i : Nat) (k : FrameBuffer → Res) : Res :=
  match s.slots[i]? with
  | some f => k f
  | none => .fault (.noSlot i)

/-- Writes Frame Buffer `i` of the queue. -/
def setSlot (i : Nat) (f : FrameBuffer) (s : State) : State := { s with slots := s.slots.set i f }

/-- The index after `i` on a ring of `QCAP` slots (R150, R152). -/
def nextIndex (c : Config) (i : Nat) : Nat := (i + 1) % c.qcap

/-- `Now()`, the Tick Source counter (R102). -/
def nowOf (s : State) : Nat := s.now

/-- The Tick Source advances by one tick: `now <- (now + 1) mod 2^TICK_W` (R101). -/
def advanceNow (s : State) : State := { s with now := (s.now + 1) % 2 ^ s.cfg.tickW }

/-- Wrap-safe subtraction, `(now - base) mod 2^w` (R106). -/
def wrapSub (w now base : Nat) : Nat := (now + (2 ^ w - base % 2 ^ w)) % 2 ^ w

/-- The ticks elapsed since the open wait began (R106, R114). -/
def elapsed (s : State) : Nat := wrapSub s.cfg.tickW (nowOf s) s.wBase

/-- `ResetPeriodTimer()`: the next callback fires a full period from now (R103). -/
def resetPeriodTimer (s : State) : State := { s with cd := s.cfg.tpb }

/-- `ScheduleNextIn(k)`: the next callback fires `k` ticks from now (R104). -/
def scheduleNextIn (k : Nat) (s : State) : State := { s with cd := k }

/-- Sets every counter of the Receiver State Machine to its value at a state entry (R123, R130). -/
def resetCounters (s : State) : State :=
  { s with lowCnt := 0, bytesRead := 0, bitCnt := 0, acc := 0x00, mask := 0x01 }

/-- `EnterDetectBreak()`, the recovery action for every error (R123). -/
def enterDetectBreak (s : State) : State := { resetCounters s with rxState := .detectBreak }

/-- `raise FrameError(c)`: sets the Error Flag and appends the event to the trace. It transfers no control by itself
(R172). -/
def raiseFrameError (c : Cause) (s : State) : State :=
  { setErr s with trace := s.trace ++ [c] }

/-- A protocol error in ReadData: the error is raised and the producer returns to DetectBreak at once, dropping the
frame in progress (R174). This is the core's exception entry; it saves nothing (R180). -/
def failFrame (c : Cause) (s : State) : State := enterDetectBreak (raiseFrameError c s)

end Sys2Proof.Machine
end

