-- ==== Sys2Proof/Machine/Consumer.lean ====
section
/-! DEFINITION. The consumer's operations (R160 to R163). They reach only the Mailbox and the Error Flag (R164). -/

namespace Sys2Proof.Machine

/-- What READ_NEXT_FRAME returns of the Mailbox frame: the count and the first `count` bytes (R81, R160). -/
def frameResult (f : FrameBuffer) : OpResult := .frame f.count (f.bytes.take f.count)

/-- `READ_NEXT_FRAME()`: the Mailbox frame, clearing the flag after the copy, or none (R160). -/
def readNextFrame (s : State) : State :=
  if s.mbFlag then clearMbFlag (returning (frameResult s.mbFrame) s) else returning .noFrame s

/-- `HAS_ERRORS()` (R161). -/
def hasErrors (s : State) : State := returning (.bit s.err) s

/-- `TAKE_ERRORS()`: the flag's value, and clears it, in one step (R163). -/
def takeErrors (s : State) : State := clearErr (returning (.bit s.err) s)

/-- READ_NEXT_FRAME. -/
def execReadNextFrame (s : State) : Res := perform (fun s => .next (readNextFrame s)) s

/-- HAS_ERRORS. -/
def execHasErrors (s : State) : Res := perform (fun s => .next (hasErrors s)) s

/-- CLEAR_ERRORS. -/
def execClearErrors (s : State) : Res := perform (fun s => .next (clearErr s)) s

/-- TAKE_ERRORS, on a core that has it (R163). -/
def execTakeErrors (s : State) : Res :=
  perform (fun s => if s.cfg.optTakeErrors then .next (takeErrors s) else .refused .optionAbsent) s

end Sys2Proof.Machine
end

