-- ==== Sys2Proof/Machine/Reset.lean ====
section
/-! DEFINITION. INIT, the setup call (R200). -/

namespace Sys2Proof.Machine

/-- `INIT()`: every element of R21 to R24 to its reset value, from any state, also while a wait is open; the Tick
Source counter is not written (R200, R203). The trace is not state and keeps its events (log 9). -/
def initCore (s : State) : State :=
  { s with
    rxState := .detectBreak, lowCnt := 0, bytesRead := 0, bitCnt := 0, acc := 0x00, mask := 0x01
    phase := .idle, wLevel := .low, wBase := 0, wMax := 0, wCont := .brkHigh
    slots := List.replicate s.cfg.qcap (FrameBuffer.empty s.cfg.fmax), head := 0, tail := 0
    mbFlag := false, mbFrame := FrameBuffer.empty s.cfg.fmax
    err := false
    cd := s.cfg.tpb }

/-- INIT. -/
def execInit (s : State) : Res := perform (fun s => .next (initCore s)) s

end Sys2Proof.Machine
end

