-- ==== Sys2Proof/Machine/Queue.lean ====
section
/-! DEFINITION. The Frame Queue: commit (R150) and the handoff to the Mailbox (R152). -/

namespace Sys2Proof.Machine

/-- `Q_COMMIT()`: makes the head slot a queued frame; when the queue was full, raises OVERRUN and drops the oldest
queued frame (R150). -/
def qCommit (s : State) : State :=
  if nextIndex s.cfg s.head = s.tail then
    { raiseFrameError .overrun s with head := nextIndex s.cfg s.head, tail := nextIndex s.cfg s.tail }
  else { s with head := nextIndex s.cfg s.head }

/-- `HANDOFF()`: moves the oldest queued frame into the Mailbox when the Mailbox is empty; the flag is written last
(R152). -/
def handoff (s : State) : Res :=
  if s.mbFlag = false ∧ s.head ≠ s.tail then
    withSlot s s.tail fun f =>
      .next (setMbFlag { s with mbFrame := f, tail := nextIndex s.cfg s.tail })
  else .next s

/-- The callback's epilogue: HANDOFF unless a wait is left open (R114, R120). -/
def epilogue (s : State) : Res := if s.phase = .idle then handoff s else .next s

/-- Q_COMMIT. -/
def execQCommit (s : State) : Res := perform (fun s => .next (qCommit s)) s

/-- HANDOFF. -/
def execHandoff (s : State) : Res := perform handoff s

end Sys2Proof.Machine
end

