-- ==== Sys2Proof/Machine/Wait.lean ====
section
/-! DEFINITION. The start of a bounded wait (R111). Its polls are in Callback.lean. -/

namespace Sys2Proof.Machine

/-- `Wait(level, max, cont)` at a tick whose line level is `l`, with `k` as what `Continue(cont, ...)` runs: the base
snapshot, the period restart, one poll at elapsed 0 with the bound checked first, and otherwise the `WAIT` phase
(R111). -/
def waitWith (k : WaitResult → State → Res) (level : Level) (max : Nat) (cont : WaitCont) (l : Level) (s : State) : Res :=
  let t := resetPeriodTimer { s with wBase := nowOf s }
  if max = 0 then k .fail t
  else if l = level then k .ok t
  else .next { t with phase := .wait, wLevel := level, wMax := max, wCont := cont }

end Sys2Proof.Machine
end

