-- ==== Sys2Proof/Machine/ReadData.lean ====
section
/-! DEFINITION. Bit recovery and frame assembly, the `ReadData` state (R130 to R135). -/

namespace Sys2Proof.Machine

/-- `RD_ALIGN(res)`: the next callback samples the middle of the start bit. The outcome is ignored (R131). -/
def rdAlign (_res : WaitResult) (s : State) : Res := .next (scheduleNextIn s.cfg.kMid s)

/-- `EnterReadData()` at a tick whose line level is `l`: resets every counter and the head slot's count, and waits for
the start bit (R130). -/
def enterReadData (l : Level) (s : State) : Res :=
  withSlot s s.head fun f =>
    waitWith rdAlign .low s.cfg.tStart .startLow l
      (setSlot s.head { f with count := 0 } { resetCounters s with rxState := .readData })

/-- `RD_START_SAMPLE(s)` (R132). -/
def rdStartSample (l : Level) (s : State) : Res :=
  match l with
  | .high => .next (failFrame .startFraming s)
  | .low => .next { s with acc := 0x00, mask := 0x01, bitCnt := 1 }

/-- `RD_DATA_SAMPLE(s)`: the data bit goes into the accumulator at the mask, least significant first (R53, R133). -/
def rdDataSample (l : Level) (s : State) : State :=
  { s with
    acc := match l with
      | .high => s.acc ||| s.mask
      | .low => s.acc
    mask := s.mask <<< 1
    bitCnt := s.bitCnt + 1 }

/-- `RD_IFS_RESOLVE(res)`: a further start bit, or the end of the frame (R135). -/
def rdIfsResolve (res : WaitResult) (s : State) : Res :=
  match res with
  | .fail =>
    if s.bytesRead < s.cfg.fmin then .next (failFrame .frameShort s)
    else .next (enterDetectBreak (qCommit s))
  | .ok =>
    withSlot s s.head fun f =>
      if f.count = s.cfg.fmax then .next (failFrame .frameLong s)
      else .next (scheduleNextIn s.cfg.kMid s)

/-- Appends a byte to the head slot: `bytes[count] <- b`, `count <- count + 1` (R134). A byte that does not exist
faults (R31). -/
def appendByte (b : Byte) (s : State) : Res :=
  withSlot s s.head fun f =>
    if f.count < f.bytes.length then
      .next (setSlot s.head { count := f.count + 1, bytes := f.bytes.set f.count b } s)
    else .fault (.noByte f.count)

/-- `RD_STOP_SAMPLE(s)`: appends the assembled byte and waits for the next start bit (R134). -/
def rdStopSample (l : Level) (s : State) : Res :=
  match l with
  | .low => .next (failFrame .stopFraming s)
  | .high =>
    andThen (appendByte s.acc s) fun s =>
      waitWith rdIfsResolve .low s.cfg.tIfs .ifsLow l { s with bytesRead := s.bytesRead + 1, bitCnt := 0 }

/-- RD_ENTRY. -/
def execRdEntry (s : State) : Res := perform (fun s => enterReadData (lineOperand s) s) s

/-- RD_ALIGN. -/
def execRdAlign (s : State) : Res := perform (fun s => rdAlign (resOperand s) s) s

/-- RD_START_SAMPLE. -/
def execRdStartSample (s : State) : Res := perform (fun s => rdStartSample (lineOperand s) s) s

/-- RD_DATA_SAMPLE. -/
def execRdDataSample (s : State) : Res := perform (fun s => .next (rdDataSample (lineOperand s) s)) s

/-- RD_STOP_SAMPLE. -/
def execRdStopSample (s : State) : Res := perform (fun s => rdStopSample (lineOperand s) s) s

/-- RD_IFS_RESOLVE. -/
def execRdIfsResolve (s : State) : Res := perform (fun s => rdIfsResolve (resOperand s) s) s

end Sys2Proof.Machine
end

