-- ==== Sys2Proof/Machine/DetectBreak.lean ====
section
/-! DEFINITION. Break detection, the `DetectBreak` state (R122 to R124). -/

namespace Sys2Proof.Machine

/-- `DB_BREAK_END(res)`: enters `ReadData` in the same callback, whatever the outcome (R124). -/
def dbBreakEnd (l : Level) (_res : WaitResult) (s : State) : Res := enterReadData l s

/-- `DB_SAMPLE(s)`: counts consecutive low samples; at `BRK_N` it waits for the end of the break (R122). -/
def dbSample (l : Level) (s : State) : Res :=
  match l with
  | .high => .next { s with lowCnt := 0 }
  | .low =>
    if s.lowCnt + 1 = s.cfg.brkN then
      waitWith (dbBreakEnd l) .high s.cfg.tBrk .brkHigh l { s with lowCnt := s.lowCnt + 1 }
    else .next { s with lowCnt := s.lowCnt + 1 }

/-- DB_SAMPLE. -/
def execDbSample (s : State) : Res := perform (fun s => dbSample (lineOperand s) s) s

/-- DB_ENTRY. -/
def execDbEntry (s : State) : Res := perform (fun s => .next (enterDetectBreak s)) s

/-- DB_BREAK_END. -/
def execDbBreakEnd (s : State) : Res := perform (fun s => dbBreakEnd (lineOperand s) (resOperand s) s) s

end Sys2Proof.Machine
end

