-- ==== Sys2Proof/Machine/Callback.lean ====
section
/-! DEFINITION. The callback (R120), the continuation and the polls of a wait (R112 to R115), and raising an error by
itself (R172). -/

namespace Sys2Proof.Machine

/-- `Continue(cont, res)`: the action after the wait, at a tick whose line level is `l` (R115). -/
def continueAt (cont : WaitCont) (l : Level) (res : WaitResult) (s : State) : Res :=
  match cont with
  | .brkHigh => dbBreakEnd l res s
  | .startLow => rdAlign res s
  | .ifsLow => rdIfsResolve res s

/-- `WAIT_LOW(max, cont)` (R112). -/
def waitLow (max : Nat) (cont : WaitCont) (l : Level) (s : State) : Res :=
  waitWith (continueAt cont l) .low max cont l s

/-- `WAIT_HIGH(max, cont)` (R113). -/
def waitHigh (max : Nat) (cont : WaitCont) (l : Level) (s : State) : Res :=
  waitWith (continueAt cont l) .high max cont l s

/-- The end of an open wait: its continuation, then the callback's epilogue (R114). -/
def endWait (l : Level) (res : WaitResult) (s : State) : Res :=
  andThen (continueAt s.wCont l res { s with phase := .idle }) epilogue

/-- `WAIT_POLL(l)`: the bound first, then the line (R114). -/
def waitPoll (l : Level) (s : State) : Res :=
  if s.wMax ≤ elapsed s then endWait l .fail (resetPeriodTimer s)
  else if l = s.wLevel then endWait l .ok (resetPeriodTimer s)
  else .next (resetPeriodTimer s)

/-- The sample rule of a callback, by `rx_state` and `bit_cnt` (R120). -/
def sample (l : Level) (s : State) : Res :=
  match s.rxState with
  | .detectBreak => dbSample l s
  | .readData =>
    if s.bitCnt = 0 then rdStartSample l s
    else if s.bitCnt ≤ 8 then .next (rdDataSample l s)
    else rdStopSample l s

/-- `CALLBACK(l)`: the sample, then HANDOFF if no wait is open (R120). -/
def callback (l : Level) (s : State) : Res := andThen (sample l s) epilogue

/-- CALLBACK. -/
def execCallback (s : State) : Res := perform (fun s => callback (lineOperand s) s) s

/-- WAIT_LOW. -/
def execWaitLow (s : State) : Res :=
  perform (fun s => withOperand (maxOperand s) fun max => waitLow max (contOperand s) (lineOperand s) s) s

/-- WAIT_HIGH. -/
def execWaitHigh (s : State) : Res :=
  perform (fun s => withOperand (maxOperand s) fun max => waitHigh max (contOperand s) (lineOperand s) s) s

/-- WAIT_POLL. -/
def execWaitPoll (s : State) : Res := perform (fun s => waitPoll (lineOperand s) s) s

/-- RAISE_FRAME_ERROR c. -/
def execRaiseFrameError (c : Cause) (s : State) : Res := perform (fun s => .next (raiseFrameError c s)) s

end Sys2Proof.Machine
end

