-- ==== Sys2Proof/Machine/TickSource.lean ====
section
/-! DEFINITION. The Tick Source's operations and the TICK step (R101 to R104). -/

namespace Sys2Proof.Machine

/-- `TICK(l)`: the counter advances; then one poll of an open wait, or the countdown and, at zero, the period reload
and the callback (R101). A countdown of 0 has nothing left to count down and faults (log 12). -/
def tick (l : Level) (s : State) : Res :=
  match s.phase with
  | .wait => waitPoll l (advanceNow s)
  | .idle =>
    match s.cd with
    | 0 => .fault .countdownZero
    | 1 => callback l { advanceNow s with cd := s.cfg.tpb }
    | n + 2 => .next { advanceNow s with cd := n + 1 }

/-- TICK. -/
def execTick (l : Level) (s : State) : Res := perform (tick l) s

/-- TS_NOW. -/
def execTsNow (s : State) : Res := perform (fun s => .next (returning (.ticks (nowOf s)) s)) s

/-- TS_RESET_PERIOD. -/
def execTsResetPeriod (s : State) : Res := perform (fun s => .next (resetPeriodTimer s)) s

/-- TS_SCHEDULE_NEXT. -/
def execTsScheduleNext (s : State) : Res :=
  perform (fun s => withOperand (offsetOperand s) fun k => .next (scheduleNextIn k s)) s

end Sys2Proof.Machine
end

