-- ==== Sys2Proof/Machine/Dispatch.lean ====
section
/-! DEFINITION. exec: one arm per constructor of Instr, each a direct call of its meaning. -/

namespace Sys2Proof.Machine

/-- The meaning of every operation. -/
def exec (i : Instr) (s : State) : Host.Outcome State Fault Refusal :=
  match i with
  -- port operations
  | .init => Sys2Proof.Machine.execInit s
  | .tick l => Sys2Proof.Machine.execTick l s
  | .readNextFrame => Sys2Proof.Machine.execReadNextFrame s
  | .hasErrors => Sys2Proof.Machine.execHasErrors s
  | .clearErrors => Sys2Proof.Machine.execClearErrors s
  | .takeErrors => Sys2Proof.Machine.execTakeErrors s
  -- internal actions
  | .callback => Sys2Proof.Machine.execCallback s
  | .dbSample => Sys2Proof.Machine.execDbSample s
  | .rdEntry => Sys2Proof.Machine.execRdEntry s
  | .rdAlign => Sys2Proof.Machine.execRdAlign s
  | .rdStartSample => Sys2Proof.Machine.execRdStartSample s
  | .rdDataSample => Sys2Proof.Machine.execRdDataSample s
  | .rdStopSample => Sys2Proof.Machine.execRdStopSample s
  | .rdIfsResolve => Sys2Proof.Machine.execRdIfsResolve s
  | .dbEntry => Sys2Proof.Machine.execDbEntry s
  | .dbBreakEnd => Sys2Proof.Machine.execDbBreakEnd s
  | .qCommit => Sys2Proof.Machine.execQCommit s
  | .handoff => Sys2Proof.Machine.execHandoff s
  | .waitLow => Sys2Proof.Machine.execWaitLow s
  | .waitHigh => Sys2Proof.Machine.execWaitHigh s
  | .waitPoll => Sys2Proof.Machine.execWaitPoll s
  | .tsNow => Sys2Proof.Machine.execTsNow s
  | .tsResetPeriod => Sys2Proof.Machine.execTsResetPeriod s
  | .tsScheduleNext => Sys2Proof.Machine.execTsScheduleNext s
  | .raiseFrameError c => Sys2Proof.Machine.execRaiseFrameError c s

end Sys2Proof.Machine
end

