-- ==== Sys2Proof/Machine/Fetch.lean ====
section
/-! DEFINITION. Taking the next request (R12, R77), and placing one. -/

namespace Sys2Proof.Machine

/-- The next operation and the state it runs in, the request taken off the list; `none` when nothing is pending. A
reserved word is refused (R77), and so is an unused internal code (R80). -/
def fetch (s : State) : Except Refusal (Option (Instr × State)) :=
  match s.pending with
  | [] => .ok none
  | .port w :: rest =>
    match decodePort s.cfg w with
    | .ok i => .ok (some (i, { s with pending := rest }))
    | .error why => .error (.reservedWord w why)
  | .internal w ops :: rest =>
    match decodeInternal w with
    | .ok i => .ok (some (i, { s with pending := rest, uop := ops }))
    | .error _ => .error (.unusedCode w)

/-- The request by which the outside world has an operation's word run next: an internal code by itself, with the
operands `uop` holds, and any other word on the port. -/
def requestFor (s : State) (w : Byte) : Request := if w[7] then .internal w s.uop else .port w

/-- The state with `w` presented as the very next request. TAKE_ERRORS is a word only of a core that has it, so its
word brings the option with it (log 6). -/
def present (s : State) (w : Byte) : State :=
  { s with
    pending := requestFor s w :: s.pending
    cfg := if w = 0x50 then { s.cfg with optTakeErrors := true } else s.cfg }

/-- `present` for a word the host numbers; a number that is no word leaves the state as it is. -/
def presentTableWord (s : State) (nbits w : Nat) : State :=
  match tableWord nbits w with
  | some b => present s b
  | none => s

end Sys2Proof.Machine
end

