-- ==== Sys2Proof/Machine/Step.lean ====
section
/-! DEFINITION. One step: the oldest pending request, decoded and executed (R12). -/

namespace Sys2Proof.Machine

/-- One step of the core. With nothing pending there is no operation, and the state changes only at operations (R12),
so it is left as it is (log 4). -/
def step (s : State) : Host.Outcome State Fault Refusal :=
  match fetch s with
  | .ok none => .next s
  | .ok (some (i, t)) => exec i t
  | .error r => .refused r

/-- `s` with an opcode-table word presented as its next request (the host's fixed name; log 4). -/
def State.withFetchWord (s : State) (nbits w : Nat) : State := presentTableWord s nbits w

end Sys2Proof.Machine
end

