-- ==== Sys2Proof/Machine/Assembler.lean ====
section
/-! DEFINITION. The lines of a sequence of port operations (R82) and the expansion of the pseudo-operations (R83). None
of them is an operation of the core. -/

namespace Sys2Proof.Machine

/-- One line of a sequence: a port operation (R82) or a pseudo-operation (R83). -/
inductive AsmLine where
  | op (i : Instr)
  | ticks (n : Nat) (l : Level)
  | level (l : Level) (n : Nat)
  | idle (n : Nat)
  | brk (b : Nat)
  | char (v : Byte)
  | chars (vs : List Byte)
  | frame (d : Nat) (vs : List Byte) (g : Nat)
  deriving DecidableEq, Repr

/-- `TICKS n, l`: `n` copies of `TICK l` (R83). -/
def ticksOf (n : Nat) (l : Level) : List Instr := List.replicate n (.tick l)

/-- `CHAR v`: the start bit, the data bits from bit 0 up, the stop bit, `TPB` ticks each (R83). -/
def charOf (c : Config) (v : Byte) : List Instr :=
  ticksOf c.tpb .low ++
    (((List.range 8).flatMap fun i => ticksOf c.tpb (Level.ofBit (v.getLsbD i))) ++ ticksOf c.tpb .high)

/-- `FRAME (d; v1, ..., vn; g)`: a break of 13 bit periods, `d` idle ticks, the characters back to back and `g` idle
ticks (R83). -/
def frameOf (c : Config) (d : Nat) (vs : List Byte) (g : Nat) : List Instr :=
  ticksOf (13 * c.tpb) .low ++ (ticksOf d .high ++ (vs.flatMap (charOf c) ++ ticksOf g .high))

/-- The port operations a line stands for (R83). -/
def AsmLine.expand (c : Config) : AsmLine → List Instr
  | .op i => [i]
  | .ticks n l => ticksOf n l
  | .level l n => ticksOf n l
  | .idle n => ticksOf n .high
  | .brk b => ticksOf (b * c.tpb) .low
  | .char v => charOf c v
  | .chars vs => vs.flatMap (charOf c)
  | .frame d vs g => frameOf c d vs g

/-- The requests a sequence of lines presents on the port, oldest first (R82). -/
def assemble (c : Config) (lines : List AsmLine) : List Request :=
  (lines.flatMap (AsmLine.expand c)).map fun i => .port (encode i)

end Sys2Proof.Machine
end

