-- ==== Sys2Proof/Safety.lean ====
section
/-! DEFINITION. The terms claims use: the queue as a list of frames, the legal values of the state's tables, the
invariant of a run, the forms that store nothing, runs of ticks, waves of a character, and two indistinguishability
relations. -/

namespace Sys2Proof.Machine

/-! ## The Frame Queue as a list -/

/-- The number of frames held in the queue, `(head - tail) mod QCAP` (R32). -/
def queueLength (s : State) : Nat := (s.head + (s.cfg.qcap - s.tail)) % s.cfg.qcap

/-- The frames of the queue, oldest first: the slots `tail, tail+1, ..., head-1` mod `QCAP` (R35). -/
def queued (s : State) : List FrameBuffer :=
  (List.range (queueLength s)).filterMap fun k => s.slots[(s.tail + k) % s.cfg.qcap]?

/-- The count of the Frame Buffer being assembled, `slot[head].count` (R14). -/
def headCount (s : State) : Nat :=
  match s.slots[s.head]? with
  | some f => f.count
  | none => 0

/-! ## Legal states -/

/-- A Frame Buffer of the configuration: `FMAX` bytes, at most `FMAX` of them valid (R23, R31). -/
abbrev FrameBuffer.Shaped (c : Config) (f : FrameBuffer) : Prop := f.bytes.length = c.fmax ∧ f.count ≤ c.fmax

/-- The storage arrays have the configuration's shape and the indices are in range (R23, R24, R31). -/
structure StorageShape (s : State) : Prop where
  slots : s.slots.length = s.cfg.qcap
  frames : ∀ f ∈ s.slots, f.Shaped s.cfg
  mailbox : s.mbFrame.Shaped s.cfg
  head : s.head < s.cfg.qcap
  tail : s.tail < s.cfg.qcap

/-- The ranges of the tables of R21, R22 and R25. -/
structure LegalValues (s : State) : Prop where
  lowCnt : s.lowCnt ≤ s.cfg.brkN
  bytesRead : s.bytesRead ≤ s.cfg.fmax
  bitCnt : s.bitCnt ≤ 9
  mask : s.mask = 0x01#8 <<< (s.bitCnt - 1) ∨ (s.bitCnt = 0 ∧ s.mask = 0x00)
  cdPositive : 1 ≤ s.cd
  cdBound : s.cd ≤ max s.cfg.tpb s.cfg.kMid
  wBase : s.wBase < 2 ^ s.cfg.tickW
  wMax : s.wMax < 2 ^ s.cfg.tickW
  now : s.now < 2 ^ s.cfg.tickW

/-- The three call sites of a wait, as an open wait shows them (R34, R116). -/
abbrev OpenWait (s : State) : Prop :=
  (s.rxState = .detectBreak ∧ s.wCont = .brkHigh ∧ s.wLevel = .high ∧ s.wMax = s.cfg.tBrk ∧ s.lowCnt = s.cfg.brkN) ∨
  (s.rxState = .readData ∧ s.wCont = .startLow ∧ s.wLevel = .low ∧ s.wMax = s.cfg.tStart ∧ s.bitCnt = 0 ∧
    s.bytesRead = 0) ∨
  (s.rxState = .readData ∧ s.wCont = .ifsLow ∧ s.wLevel = .low ∧ s.wMax = s.cfg.tIfs ∧ s.bitCnt = 0 ∧
    1 ≤ s.bytesRead)

/-- The invariant of a run: what every state that port operations reach from reset satisfies. -/
structure RunInv (s : State) : Prop where
  /-- R9. -/
  config : s.cfg.WF
  /-- R23, R31. -/
  storage : StorageShape s
  /-- R21, R22, R25. -/
  legal : LegalValues s
  /-- An open wait is one of the three, and its bound is not yet reached (R34, R106). -/
  waiting : s.phase = .wait → OpenWait s ∧ elapsed s < s.wMax
  /-- R34, R123. -/
  detecting : s.rxState = .detectBreak →
    s.bitCnt = 0 ∧ s.bytesRead = 0 ∧ s.acc = 0x00 ∧ s.mask = 0x01 ∧ (s.phase = .idle → s.lowCnt < s.cfg.brkN)
  /-- R30. -/
  assembling : s.rxState = .readData → s.lowCnt = 0 ∧ s.bytesRead = headCount s
  /-- While a character is on the way the head slot has room for its byte (R31). -/
  room : s.rxState = .readData → ¬(s.phase = .wait ∧ s.wCont = .ifsLow) → headCount s < s.cfg.fmax
  /-- Every queued frame is long enough (R135, R150). -/
  queuedFrames : ∀ f ∈ queued s, s.cfg.fmin ≤ f.count
  /-- So is a frame the consumer has not claimed (R152, R160). -/
  mailboxFrame : s.mbFlag = true → s.cfg.fmin ≤ s.mbFrame.count
  /-- A run of the core presents command words only (R12, R79). -/
  portOnly : ∀ r ∈ s.pending, ∃ w, r = Request.port w

/-! ## What stores into a slot -/

/-- A callback with the sample `l` stores into no slot: it counts or opens the break's wait, or it is a start sample, a
data sample or a low stop sample (R122, R132 to R134). -/
def SampleStoresNothing (l : Level) (s : State) : Prop :=
  (s.rxState = .detectBreak ∧ s.cfg.tBrk ≠ 0) ∨ (s.rxState = .readData ∧ (s.bitCnt ≤ 8 ∨ l = .low))

/-- The forms that store into no slot. The others are INIT, the entry of `ReadData`, whatever runs it, and a good stop
sample (R130, R134, R200). -/
def StoresNothing (s : State) : Instr → Prop
  | .init | .rdEntry | .dbBreakEnd => False
  | .readNextFrame | .hasErrors | .clearErrors | .takeErrors | .rdAlign | .rdStartSample | .rdDataSample
  | .rdIfsResolve | .dbEntry | .qCommit | .handoff | .tsNow | .tsResetPeriod | .tsScheduleNext
  | .raiseFrameError _ => True
  | .dbSample => s.cfg.tBrk ≠ 0
  | .rdStopSample => s.uop.line = .low
  | .waitLow | .waitHigh => s.uop.cont ≠ .brkHigh
  | .waitPoll => s.wCont ≠ .brkHigh
  | .callback => SampleStoresNothing s.uop.line s
  | .tick l => (s.phase = .wait ∧ s.wCont ≠ .brkHigh) ∨ (s.phase = .idle ∧ (s.cd = 1 → SampleStoresNothing l s))

/-! ## Runs of ticks -/

/-- The ticks of a wave, one TICK a level, stopping at the first fault or refusal. -/
def runTicks : List Level → State → Res
  | [], s => .next s
  | l :: ls, s => andThen (exec (.tick l) s) (runTicks ls)

/-- The counter after `n` more ticks (R25). -/
def nowAfter (n : Nat) (s : State) : Nat := (s.now + n) % 2 ^ s.cfg.tickW

/-- The level of bit period `k` of a character: the start bit, eight data bits least significant first, and the stop
bit (R71). -/
def charLevel (b : Byte) (k : Nat) : Level :=
  if k = 0 then .low else if k ≤ 8 then Level.ofBit (b.getLsbD (k - 1)) else .high

/-- The ticks of an ideal character after the tick `te` of its start edge, up to its stop-bit sample: tick `te + j` is
in bit period `j / TPB` (R136). -/
def charWave (c : Config) (b : Byte) : List Level :=
  (List.range (c.kMid + 9 * c.tpb)).map fun j => charLevel b ((j + 1) / c.tpb)

/-- The ticks of a character and the idle gap after its stop-bit sample: the tick of its start edge, the character, and
`gap` ticks high. -/
def charThenGap (c : Config) (x : Byte × Nat) : List Level :=
  .low :: (charWave c x.1 ++ List.replicate x.2 .high)

/-- The ticks of a frame: a break of `low` ticks, a delimiter of `d` ticks, the characters `cs` with their gaps, the
last character `b`, and the closing gap, `T_IFS` ticks from its stop-bit sample (R72, R138). -/
def frameWave (c : Config) (low d : Nat) (cs : List (Byte × Nat)) (b : Byte) : List Level :=
  List.replicate low .low ++ (List.replicate d .high ++ (cs.flatMap (charThenGap c) ++ charThenGap c (b, c.tIfs)))

/-- HANDOFF would move nothing: the Mailbox is full, or the queue is empty (R33, R152). -/
abbrev HandoffIdle (s : State) : Prop := s.mbFlag = true ∨ s.head = s.tail

/-! ## What cannot be told apart -/

/-- Two outcomes agree up to `R` on their states. -/
def SameOutcome (R : State → State → Prop) : Res → Res → Prop
  | .next s, .next t => R s t
  | .fault f, .fault g => f = g
  | .refused x, .refused y => x = y
  | _, _ => False

/-- Two Frame Buffers with the same valid bytes; the bytes at or beyond the count are free (R36). -/
def FrameBuffer.SameValid (f g : FrameBuffer) : Prop :=
  f.count = g.count ∧ f.bytes.length = g.bytes.length ∧ f.bytes.take f.count = g.bytes.take g.count

/-- Two states that differ at most in bytes at or beyond the count of their Frame Buffer (R36). -/
def SameUpToUndefinedBytes (s t : State) : Prop :=
  List.Forall₂ FrameBuffer.SameValid s.slots t.slots ∧ s.mbFrame.SameValid t.mbFrame ∧
    t = { s with slots := t.slots, mbFrame := t.mbFrame }

/-- Two states that differ only in the origin of the Tick Source counter: it is shifted by `d`, and an open wait has
run for the same number of ticks (R25, R106). -/
def SameUpToOrigin (d : Nat) (s t : State) : Prop :=
  t.now = (s.now + d) % 2 ^ s.cfg.tickW ∧ (s.phase = .wait → elapsed s = elapsed t) ∧
    t = { s with now := t.now, wBase := t.wBase }

end Sys2Proof.Machine
end

