-- ==== Sys2Proof/Certificates/Slice0/Obligations.lean ====
section
/-! DEFINITION. The statements for the provers, each with the rule or the section of spec/ it formalises. A result
statement ends in the next state written out, so it is also the operation's frame and says where it completes. -/

open Sys2Proof Sys2Proof.Machine

/-! ## Encoding and the step -/

/-- 30_encoding.md sections 2 and 3 (the spec's own encodings, D16): a word decodes to an operation exactly when it is
that operation's word, over every word and every operation of the opcode table. -/
def Obligations.DecodeAndEncodeAgree : Prop :=
  ∀ (w : Byte) (i : Instr), decode w = .ok i ↔ encode i = w

/-- 30_encoding.md section 2 (D16, D17): in every configuration the port accepts exactly the words of the port
operations that the configuration has. -/
def Obligations.PortAcceptsExactlyItsTable : Prop :=
  ∀ (c : Config) (w : Byte) (i : Instr), decodePort c w = .ok i ↔ i.isPort = true ∧ i.WF c = true ∧ encode i = w

/-- 30_encoding.md sections 2 and 3: words of the spec's tables, at least one of every family. -/
def Obligations.SpecWordsDecode : Prop :=
  decode 0b00000000#8 = .ok .init ∧ decode 0b00010001#8 = .ok (.tick .high) ∧ decode 0b00100000#8 = .ok .readNextFrame ∧
  decode 0b10001110#8 = .ok .waitPoll ∧ decode 0b10000001#8 = .ok .dbSample ∧ decode 0b10000110#8 = .ok .rdStopSample ∧
  decode 0b10001011#8 = .ok .handoff ∧ decode 0b10010001#8 = .ok .tsScheduleNext ∧
  decode 0b10100101#8 = .ok (.raiseFrameError .overrun)

/-- The model's choice (log 4): the inputs of the steps are a list of pending requests, of which one step takes the
oldest; that a command word the port accepts runs as its operation is 00_scope.md section 5 and 30_encoding.md
section 2. -/
def Obligations.StepRunsPortCommand : Prop :=
  ∀ (s : State) (w : Byte) (rest : List Request) (i : Instr), s.pending = .port w :: rest →
    decodePort s.cfg w = .ok i → step s = exec i { s with pending := rest }

/-- The model's choice (log 5): a request for one internal action by itself runs it, with the operands of the
request. -/
def Obligations.StepRunsInternalAction : Prop :=
  ∀ (s : State) (w : Byte) (ops : MicroOperands) (rest : List Request) (i : Instr),
    s.pending = .internal w ops :: rest → i.isPort = false → encode i = w →
      step s = exec i { s with pending := rest, uop := ops }

/-- 30_encoding.md section 2 (D17; log 7): every reserved word is refused, and the refusal stays for the rest of the
run. -/
def Obligations.ReservedWordIsRefusedForGood : Prop :=
  ∀ (s : State) (w : Byte) (rest : List Request), s.pending = .port w :: rest →
    (w[7] = true ∨ w.extractLsb' 4 3 = 6 ∨ w.extractLsb' 4 3 = 7 ∨ w.extractLsb' 1 3 ≠ 0 ∨
      (w.extractLsb' 4 3 ≠ 1 ∧ w[0] = true) ∨ (w = 0x50 ∧ s.cfg.optTakeErrors = false)) →
    ∃ why, ∀ k, Host.Core.run core (k + 1) s = .refused (.reservedWord w why)

/-- The model's choice (log 4): with no request pending, a step leaves the state as it is. -/
def Obligations.NothingPendingChangesNothing : Prop :=
  ∀ s : State, s.pending = [] → step s = .next s

/-- R9: a configuration that breaks a constraint has no meaning: every operation is refused. -/
def Obligations.IllFormedConfigIsRefused : Prop :=
  ∀ (i : Instr) (s : State), ¬s.cfg.WF → exec i s = .refused .illFormedConfig

/-- 30_encoding.md section 5 (D22): a pseudo-operation expands to port operations only, and the port accepts every
word of a sequence of them. -/
def Obligations.PseudoOperationsArePortOperations : Prop :=
  ∀ (c : Config) (x : AsmLine), (∀ i, x ≠ .op i) →
    (∀ i ∈ x.expand c, i.isPort = true) ∧
    ∀ r ∈ assemble c [x], ∃ w i, r = Request.port w ∧ decodePort c w = .ok i ∧ i ∈ x.expand c

/-- 30_encoding.md sections 1 and 5 (D22): `CHAR v` is the line image of the byte: 10 bit periods of `TPB` ticks, tick
`j` at the level of bit period `j / TPB`. -/
def Obligations.CharExpansionIsTheCharacter : Prop :=
  ∀ (c : Config) (v : Byte),
    (charOf c v).length = 10 * c.tpb ∧
    ∀ j, j < 10 * c.tpb → (charOf c v)[j]? = some (.tick (charLevel v (j / c.tpb)))

/-! ## Reset -/

/-- 70_reset_and_hazards.md section 1, "After INIT the core is in `DetectBreak`, with `low_cnt = 0`, no wait open, an
empty queue, an empty Mailbox and `err = 0`" (D18), for every configuration and every draw of the counter; the reset
state of this model is one of them (logs 2 and 3). -/
def Obligations.PowerOnValues : Prop :=
  (∀ (c : Config) (n : Nat), let s := State.powerOn c n
    s.rxState = .detectBreak ∧ s.lowCnt = 0 ∧ s.bytesRead = 0 ∧ s.bitCnt = 0 ∧ s.acc = 0x00 ∧ s.mask = 0x01 ∧
    s.phase = .idle ∧ s.cd = c.tpb ∧ queued s = [] ∧ s.head = s.tail ∧ s.mbFlag = false ∧ s.err = false ∧ s.now = n ∧
    (∀ f ∈ s.slots, f.count = 0)) ∧
  ∃ (c : Config) (n : Nat), State.reset = State.powerOn c n

/-- 70_reset_and_hazards.md section 1 (D18, D19): INIT, from any state, leaves the reset values and the counter as it
was. The inputs and the trace are the model's (logs 4, 5 and 9). -/
def Obligations.InitRestoresPowerOn : Prop :=
  ∀ s : State, s.cfg.WF → exec .init s =
    .next { State.powerOn s.cfg s.now with pending := s.pending, uop := s.uop, trace := s.trace }

/-! ## Tick Source -/

/-- R102: TS_NOW returns the counter and changes nothing else. -/
def Obligations.TsNowReturnsCounter : Prop :=
  ∀ s : State, s.cfg.WF → exec .tsNow s = .next { s with result := .ticks s.now }

/-- 40_tick_source.md, TS_RESET_PERIOD (D5): a full period from now to the next callback. -/
def Obligations.TsResetPeriodRestartsCountdown : Prop :=
  ∀ s : State, s.cfg.WF → exec .tsResetPeriod s = .next { s with cd := s.cfg.tpb, result := .nothing }

/-- 40_tick_source.md, TS_SCHEDULE_NEXT (D5): the offset is counted from now; 0 is refused. -/
def Obligations.TsScheduleNextSetsCountdown : Prop :=
  ∀ s : State, s.cfg.WF →
    (1 ≤ s.uop.k → exec .tsScheduleNext s = .next { s with cd := s.uop.k, result := .nothing }) ∧
    (s.uop.k = 0 → exec .tsScheduleNext s = .refused .zeroOffset)

/-- 40_tick_source.md, TICK (D1, D5): the counter advances, and then an open wait is polled, or the countdown counts
down, or the period is reloaded before the callback runs. -/
def Obligations.TickFollowsPhaseAndCountdown : Prop :=
  ∀ (l : Level) (s : State), s.cfg.WF →
    (s.phase = .idle → 2 ≤ s.cd →
      exec (.tick l) s = .next { s with now := nowAfter 1 s, cd := s.cd - 1, result := .nothing }) ∧
    (s.phase = .idle → s.cd = 1 →
      exec (.tick l) s = callback l { s with now := nowAfter 1 s, cd := s.cfg.tpb, result := .nothing }) ∧
    (s.phase = .wait → exec (.tick l) s = waitPoll l { s with now := nowAfter 1 s, result := .nothing })

/-- 40_tick_source.md section 2 (derived there): with no wait open, ticks short of the countdown change only the
counter and the countdown, whatever the line does, and the tick that ends the countdown runs the callback. -/
def Obligations.QuietTicksThenCallback : Prop :=
  ∀ (ls : List Level) (l : Level) (s : State), s.cfg.WF → s.phase = .idle → ls ≠ [] →
    (ls.length < s.cd →
      runTicks ls s = .next { s with now := nowAfter ls.length s, cd := s.cd - ls.length, result := .nothing }) ∧
    (ls.length + 1 = s.cd →
      runTicks (ls ++ [l]) s =
        callback l { s with now := nowAfter (ls.length + 1) s, cd := s.cfg.tpb, result := .nothing })

/-! ## Waits -/

/-- 41_wait_primitives.md section 1 (D3): while the line stays off the awaited level and the bound is not reached, the
wait stays open and no callback fires; then the first tick at the level ends it OK, and the tick that reaches the bound
ends it FAIL whatever the line reads. -/
def Obligations.OpenWaitOutcomeLaw : Prop :=
  ∀ (ls : List Level) (l : Level) (s : State), s.cfg.WF → s.phase = .wait → s.wMax < 2 ^ s.cfg.tickW → ls ≠ [] →
    (∀ x ∈ ls, x ≠ s.wLevel) → elapsed s + ls.length < s.wMax →
    let t := { s with now := nowAfter ls.length s, cd := s.cfg.tpb, result := OpResult.nothing }
    runTicks ls s = .next t ∧
    (elapsed s + ls.length + 1 < s.wMax → l = s.wLevel →
      exec (.tick l) t = endWait l .ok { t with now := nowAfter (ls.length + 1) s }) ∧
    (elapsed s + ls.length + 1 = s.wMax →
      exec (.tick l) t = endWait l .fail { t with now := nowAfter (ls.length + 1) s })

/-- 41_wait_primitives.md, WAIT_LOW (D3): bound 0 fails at once, a low line ends it OK at once, a high line opens the
wait for a low level. That a bound of `2^TICK_W` or more, outside the operand's range, is refused is the model's
(log 15). -/
def Obligations.WaitLowStarts : Prop :=
  ∀ s : State, s.cfg.WF →
    (s.uop.max < 2 ^ s.cfg.tickW → s.uop.max ≠ 0 → s.uop.line = .high →
      exec .waitLow s = .next { s with
        wBase := s.now, cd := s.cfg.tpb, phase := .wait, wLevel := .low, wMax := s.uop.max, wCont := s.uop.cont,
        result := .nothing }) ∧
    (s.uop.max < 2 ^ s.cfg.tickW → s.uop.max ≠ 0 → s.uop.line = .low →
      exec .waitLow s =
        continueAt s.uop.cont .low .ok { s with wBase := s.now, cd := s.cfg.tpb, result := .nothing }) ∧
    (s.uop.max = 0 → exec .waitLow s =
      continueAt s.uop.cont s.uop.line .fail { s with wBase := s.now, cd := s.cfg.tpb, result := .nothing }) ∧
    (2 ^ s.cfg.tickW ≤ s.uop.max → exec .waitLow s = .refused .boundTooLarge)

/-- 41_wait_primitives.md, WAIT_HIGH (D3): as WAIT_LOW with the polarity reversed. That a bound of `2^TICK_W` or more,
outside the operand's range, is refused is the model's (log 15). -/
def Obligations.WaitHighStarts : Prop :=
  ∀ s : State, s.cfg.WF →
    (s.uop.max < 2 ^ s.cfg.tickW → s.uop.max ≠ 0 → s.uop.line = .low →
      exec .waitHigh s = .next { s with
        wBase := s.now, cd := s.cfg.tpb, phase := .wait, wLevel := .high, wMax := s.uop.max, wCont := s.uop.cont,
        result := .nothing }) ∧
    (s.uop.max < 2 ^ s.cfg.tickW → s.uop.max ≠ 0 → s.uop.line = .high →
      exec .waitHigh s =
        continueAt s.uop.cont .high .ok { s with wBase := s.now, cd := s.cfg.tpb, result := .nothing }) ∧
    (s.uop.max = 0 → exec .waitHigh s =
      continueAt s.uop.cont s.uop.line .fail { s with wBase := s.now, cd := s.cfg.tpb, result := .nothing }) ∧
    (2 ^ s.cfg.tickW ≤ s.uop.max → exec .waitHigh s = .refused .boundTooLarge)

/-- 41_wait_primitives.md, WAIT_POLL (D3, D4): short of the bound and off the level the wait stays open with the period
restarted; the bound, checked first, or the level ends it, and the continuation runs before the epilogue HANDOFF. A
start-bit wait that ends aligns the next callback (the Mailbox being full, nothing moves). -/
def Obligations.WaitPollStaysOrEnds : Prop :=
  ∀ s : State, s.cfg.WF →
    let t := { s with cd := s.cfg.tpb, result := OpResult.nothing }
    (elapsed s < s.wMax → s.uop.line ≠ s.wLevel → exec .waitPoll s = .next t) ∧
    (s.wMax ≤ elapsed s →
      exec .waitPoll s = andThen (continueAt s.wCont s.uop.line .fail { t with phase := .idle }) epilogue) ∧
    (elapsed s < s.wMax → s.uop.line = s.wLevel →
      exec .waitPoll s = andThen (continueAt s.wCont s.uop.line .ok { t with phase := .idle }) epilogue) ∧
    (s.wMax ≤ elapsed s ∨ s.uop.line = s.wLevel → s.wCont = .startLow → s.mbFlag = true →
      exec .waitPoll s = .next { t with phase := .idle, cd := s.cfg.kMid })

/-! ## The callback and DetectBreak -/

/-- 42_detect_break.md section 1 (D4): a callback takes the sample, dispatches on `rx_state` and, in `ReadData`, on
`bit_cnt`, and ends with its HANDOFF unless a wait is open. A data-bit callback with nothing to hand over is its sample
alone. -/
def Obligations.CallbackDispatchesTheSample : Prop :=
  ∀ s : State, s.cfg.WF →
    let l := s.uop.line
    let t := { s with result := OpResult.nothing }
    (s.rxState = .detectBreak → exec .callback s = andThen (dbSample l t) epilogue) ∧
    (s.rxState = .readData → s.bitCnt = 0 → exec .callback s = andThen (rdStartSample l t) epilogue) ∧
    (s.rxState = .readData → 1 ≤ s.bitCnt → s.bitCnt ≤ 8 → exec .callback s = epilogue (rdDataSample l t)) ∧
    (s.rxState = .readData → s.bitCnt = 9 → exec .callback s = andThen (rdStopSample l t) epilogue) ∧
    (s.rxState = .readData → 1 ≤ s.bitCnt → s.bitCnt ≤ 8 → HandoffIdle s →
      exec .callback s = .next (rdDataSample l t))

/-- 60_exceptions.md section 2 and 10_state.md section 5 (derived there), for every callback's end: from a state of a
run, a callback, the poll of an open wait and a tick that runs either complete, and one that leaves no wait open has
ended a callback with its handoff: if the Mailbox is empty then, so is the queue. -/
def Obligations.CallbackCompletesHandedOver : Prop :=
  ∀ s : State, RunInv s →
    (s.phase = .idle → ∃ t, exec .callback s = .next t ∧ (t.phase = .idle → t.mbFlag = false → t.head = t.tail)) ∧
    (s.phase = .wait → ∃ t, exec .waitPoll s = .next t ∧ (t.phase = .idle → t.mbFlag = false → t.head = t.tail)) ∧
    ∀ l, s.phase = .wait ∨ s.cd = 1 →
      ∃ t, exec (.tick l) s = .next t ∧ (t.phase = .idle → t.mbFlag = false → t.head = t.tail)

/-- 42_detect_break.md section 2: in `DetectBreak` a callback is this action; a high sample resets the count; a low one
counts, and the `BRK_N`-th starts the wait for the end of the break. That the wait's end enters `ReadData` in the same
callback whatever the outcome is the spec's reading (D7, D9). `DetectBreak` is the initial state. -/
def Obligations.DbSampleCountsLows : Prop :=
  State.reset.rxState = .detectBreak ∧
  (∀ (l : Level) (r : WaitResult) (s : State), continueAt .brkHigh l r s = enterReadData l s) ∧
  ∀ s : State, s.cfg.WF →
    (s.rxState = .detectBreak → exec .callback s = andThen (exec .dbSample s) epilogue) ∧
    (s.uop.line = .high → exec .dbSample s = .next { s with lowCnt := 0, result := .nothing }) ∧
    (s.uop.line = .low → s.lowCnt + 1 ≠ s.cfg.brkN →
      exec .dbSample s = .next { s with lowCnt := s.lowCnt + 1, result := .nothing }) ∧
    (s.uop.line = .low → s.lowCnt + 1 = s.cfg.brkN →
      exec .dbSample s = waitHigh s.cfg.tBrk .brkHigh .low { s with lowCnt := s.cfg.brkN, result := .nothing }) ∧
    (s.uop.line = .low → s.lowCnt + 1 = s.cfg.brkN → s.cfg.tBrk ≠ 0 →
      exec .dbSample s = .next { s with
        lowCnt := s.cfg.brkN, wBase := s.now, cd := s.cfg.tpb, phase := .wait, wLevel := .high, wMax := s.cfg.tBrk,
        wCont := .brkHigh, result := .nothing })

/-- 42_detect_break.md, DB_ENTRY (D23): every counter is reset; the queue, the Mailbox, `err` and the countdown are
not touched. -/
def Obligations.DbEntryResetsCounters : Prop :=
  ∀ s : State, s.cfg.WF → exec .dbEntry s = .next { s with
    rxState := .detectBreak, lowCnt := 0, bytesRead := 0, bitCnt := 0, acc := 0x00, mask := 0x01, result := .nothing }

/-- 42_detect_break.md, DB_BREAK_END (D7, D9), and 43_read_data.md, RD_ENTRY (D23): whatever the outcome of the break's
wait, `ReadData` is entered: counters and the head slot's count are reset, and the start-bit wait opens on a high line
or ends at once on a low one, aligning the next callback. -/
def Obligations.RdEntryStartsTheSearch : Prop :=
  ∀ (i : Instr) (s : State) (f : FrameBuffer), i = .rdEntry ∨ i = .dbBreakEnd → s.cfg.WF → s.slots[s.head]? = some f →
    let t := { s with
      rxState := RxState.readData, lowCnt := 0, bytesRead := 0, bitCnt := 0, acc := 0x00, mask := 0x01,
      slots := s.slots.set s.head { f with count := 0 }, wBase := s.now, result := OpResult.nothing }
    (s.cfg.tStart ≠ 0 → s.uop.line = .high →
      exec i s = .next { t with
        cd := s.cfg.tpb, phase := .wait, wLevel := .low, wMax := s.cfg.tStart, wCont := .startLow }) ∧
    (s.cfg.tStart = 0 ∨ s.uop.line = .low → exec i s = .next { t with cd := s.cfg.kMid })

/-! ## ReadData -/

/-- 43_read_data.md, RD_ALIGN (D6, D8): the next callback is `K_MID` ticks away, whatever the outcome. -/
def Obligations.RdAlignSchedulesMidBit : Prop :=
  ∀ s : State, s.cfg.WF → exec .rdAlign s = .next { s with cd := s.cfg.kMid, result := .nothing }

/-- R132: with `bit_cnt = 0` the sample is the start bit: high is START_FRAMING and returns to `DetectBreak`; low begins
data-bit collection. -/
def Obligations.RdStartSampleChecksStartBit : Prop :=
  ∀ s : State, s.cfg.WF →
    (s.rxState = .readData → s.bitCnt = 0 → exec .callback s = andThen (exec .rdStartSample s) epilogue) ∧
    (s.uop.line = .high → exec .rdStartSample s = .next { s with
      err := true, trace := s.trace ++ [.startFraming], rxState := .detectBreak, lowCnt := 0, bytesRead := 0,
      bitCnt := 0, acc := 0x00, mask := 0x01, result := .nothing }) ∧
    (s.uop.line = .low →
      exec .rdStartSample s = .next { s with acc := 0x00, mask := 0x01, bitCnt := 1, result := .nothing })

/-- R133: with `bit_cnt` in 1..8 the sample is a data bit: it is ORed in at the mask, the mask shifts left and the
counter counts. -/
def Obligations.RdDataSampleCollectsBit : Prop :=
  ∀ s : State, s.cfg.WF →
    (s.rxState = .readData → 1 ≤ s.bitCnt → s.bitCnt ≤ 8 →
      exec .callback s = andThen (exec .rdDataSample s) epilogue) ∧
    exec .rdDataSample s = .next { s with
      acc := if s.uop.line = .high then s.acc ||| s.mask else s.acc, mask := s.mask <<< 1, bitCnt := s.bitCnt + 1,
      result := .nothing }

/-- R134: with `bit_cnt = 9` the sample is the stop bit: low is STOP_FRAMING and returns to `DetectBreak`; high appends
the byte to the head slot and starts the inter-byte wait. -/
def Obligations.RdStopSampleAppendsByte : Prop :=
  ∀ s : State, s.cfg.WF →
    (s.rxState = .readData → s.bitCnt = 9 → exec .callback s = andThen (exec .rdStopSample s) epilogue) ∧
    (s.uop.line = .low → exec .rdStopSample s = .next { s with
      err := true, trace := s.trace ++ [.stopFraming], rxState := .detectBreak, lowCnt := 0, bytesRead := 0,
      bitCnt := 0, acc := 0x00, mask := 0x01, result := .nothing }) ∧
    (∀ f, s.uop.line = .high → s.slots[s.head]? = some f → f.count < f.bytes.length →
      let t := { s with
        slots := s.slots.set s.head { count := f.count + 1, bytes := f.bytes.set f.count s.acc },
        bytesRead := s.bytesRead + 1, bitCnt := 0, result := OpResult.nothing }
      exec .rdStopSample s = waitLow s.cfg.tIfs .ifsLow .high t ∧
      (s.cfg.tIfs ≠ 0 → exec .rdStopSample s = .next { t with
        wBase := s.now, cd := s.cfg.tpb, phase := .wait, wLevel := .low, wMax := s.cfg.tIfs, wCont := .ifsLow }))

/-- 43_read_data.md, RD_IFS_RESOLVE (its offset is the spec's decision D6): the timeout ends the frame, short or
committed; a further start bit is one byte too many, or aligns the next callback. -/
def Obligations.RdIfsResolveEndsOrContinues : Prop :=
  ∀ s : State, s.cfg.WF →
    let back := fun (c : Cause) => { s with
      err := true, trace := s.trace ++ [c], rxState := RxState.detectBreak, lowCnt := 0, bytesRead := 0, bitCnt := 0,
      acc := 0x00, mask := 0x01, result := OpResult.nothing }
    (s.uop.res = .fail → s.bytesRead < s.cfg.fmin → exec .rdIfsResolve s = .next (back .frameShort)) ∧
    (s.uop.res = .fail → s.cfg.fmin ≤ s.bytesRead →
      exec .rdIfsResolve s = .next { qCommit s with
        rxState := .detectBreak, lowCnt := 0, bytesRead := 0, bitCnt := 0, acc := 0x00, mask := 0x01,
        result := .nothing }) ∧
    (s.uop.res = .ok → headCount s = s.cfg.fmax → s.head < s.slots.length →
      exec .rdIfsResolve s = .next (back .frameLong)) ∧
    (s.uop.res = .ok → headCount s ≠ s.cfg.fmax → s.head < s.slots.length →
      exec .rdIfsResolve s = .next { s with cd := s.cfg.kMid, result := .nothing })

/-- 20_memory.md section 2, R53: the data sample with `bit_cnt = 1` supplies bit 0 and the one with `bit_cnt = 8` bit
7, for every byte: after the start sample and the eight data samples of a byte the accumulator holds it. -/
def Obligations.DataBitsAssembleLsbFirst : Prop :=
  ∀ (b : Byte) (s : State), s.bitCnt = 1 → s.acc = 0x00 → s.mask = 0x01 →
    ∀ k ≤ 8,
      (List.range k).foldl (fun t j => rdDataSample (charLevel b (j + 1)) t) s =
        { s with acc := b &&& BitVec.ofNat 8 (2 ^ k - 1), mask := 0x01#8 <<< k, bitCnt := k + 1 }

/-- 43_read_data.md section 4 (derived there): with `K_MID <= TPB - 1`, the ticks of an ideal character after its start
edge, up to its stop-bit sample, append exactly its byte to the head slot, raise nothing and open the inter-byte wait.
`HandoffIdle` holds when the callback that saw the edge has ended (R33). -/
def Obligations.IdealCharacterIsReceived : Prop :=
  ∀ (b : Byte) (s : State) (f : FrameBuffer), s.cfg.WF → s.cfg.kMid + 1 ≤ s.cfg.tpb → s.cfg.tIfs ≠ 0 →
    s.rxState = .readData → s.phase = .idle → s.bitCnt = 0 → s.cd = s.cfg.kMid → HandoffIdle s →
    s.slots[s.head]? = some f → f.count < f.bytes.length →
    let n := s.cfg.kMid + 9 * s.cfg.tpb
    runTicks (charWave s.cfg b) s = .next { s with
      slots := s.slots.set s.head { count := f.count + 1, bytes := f.bytes.set f.count b },
      bytesRead := s.bytesRead + 1, bitCnt := 0, acc := b, mask := 0x00, cd := s.cfg.tpb, phase := .wait,
      wLevel := .low, wMax := s.cfg.tIfs, wCont := .ifsLow, wBase := nowAfter n s, now := nowAfter n s,
      result := .nothing }

/-- 42_detect_break.md section 3 (derived there): from `DetectBreak` with no low sample counted, a line low until the
`BRK_N`-th sample (at most `BRK_N * TPB` ticks, `cd` being at most `TPB` there) is a break: the wait for its end opens
at that sample. -/
def Obligations.LowRunIsABreak : Prop :=
  ∀ s : State, s.cfg.WF → s.cfg.tBrk ≠ 0 → s.rxState = .detectBreak → s.phase = .idle → s.lowCnt = 0 → 1 ≤ s.cd →
    HandoffIdle s →
    let n := s.cd + (s.cfg.brkN - 1) * s.cfg.tpb
    runTicks (List.replicate n .low) s = .next { s with
      lowCnt := s.cfg.brkN, cd := s.cfg.tpb, phase := .wait, wLevel := .high, wMax := s.cfg.tBrk, wCont := .brkHigh,
      wBase := nowAfter n s, now := nowAfter n s, result := .nothing }

/-- 42_detect_break.md section 3 (derived there): from `DetectBreak` with no low sample counted, a line low for at most
`(BRK_N - 1) * TPB` ticks and high after them is no break: at the `BRK_N`-th sample no wait is open and the count is 0
again. -/
def Obligations.ShortLowRunIsNoBreak : Prop :=
  ∀ (s : State) (k : Nat), s.cfg.WF → s.rxState = .detectBreak → s.phase = .idle → s.lowCnt = 0 → 1 ≤ s.cd →
    HandoffIdle s → k ≤ (s.cfg.brkN - 1) * s.cfg.tpb →
    let n := s.cd + (s.cfg.brkN - 1) * s.cfg.tpb
    runTicks (List.replicate k .low ++ List.replicate (n - k) .high) s = .next { s with
      lowCnt := 0, cd := s.cfg.tpb, now := nowAfter n s, result := .nothing }

/-- 43_read_data.md section 4 (derived there), the source's first testable property: a break that rises within `T_BRK`
ticks, a first start edge within `T_START - 1` ticks of the rise, `FMIN` to `FMAX` ideal characters, each later start
edge within `T_IFS - 1` ticks of the stop-bit sample before it, and a closing gap of `T_IFS` ticks, with
`K_MID <= TPB - 1`: exactly one frame is committed, its bytes are the transmitted bytes in order, and the core looks for
the next break. With the Mailbox full the frame joins the queue; only if that was full is there an error, OVERRUN, and
the oldest queued frame is dropped. With the Mailbox empty the oldest queued frame moves into it before, or, if there
was none, this frame itself in the tick of its commit. -/
def Obligations.IdealFrameIsReceivedWhole : Prop :=
  ∀ (s : State) (r d : Nat) (cs : List (Byte × Nat)) (b : Byte), RunInv s → s.rxState = .detectBreak → s.phase = .idle →
    s.lowCnt = 0 → s.cfg.kMid + 1 ≤ s.cfg.tpb → 1 ≤ s.cfg.tIfs →
    r + 1 < s.cfg.tBrk → 1 ≤ d → d < s.cfg.tStart → (∀ x ∈ cs, x.2 + 1 < s.cfg.tIfs) →
    s.cfg.fmin ≤ cs.length + 1 → cs.length + 1 ≤ s.cfg.fmax →
    ∃ (t : State) (f : FrameBuffer),
      runTicks (frameWave s.cfg (s.cd + (s.cfg.brkN - 1) * s.cfg.tpb + r) d cs b) s = .next t ∧
      f.count = cs.length + 1 ∧ f.bytes.take f.count = cs.map Prod.fst ++ [b] ∧
      (s.mbFlag = true → (queued s).length + 1 < s.cfg.qcap →
        queued t = queued s ++ [f] ∧ t.mbFrame = s.mbFrame ∧ t.err = s.err ∧ t.trace = s.trace) ∧
      (s.mbFlag = true → (queued s).length + 1 = s.cfg.qcap →
        queued t = (queued s).tail ++ [f] ∧ t.mbFrame = s.mbFrame ∧ t.err = true ∧ t.trace = s.trace ++ [.overrun]) ∧
      (s.mbFlag = false → queued s = [] →
        queued t = [] ∧ t.mbFrame = f ∧ t.err = s.err ∧ t.trace = s.trace) ∧
      (∀ g rest, s.mbFlag = false → queued s = g :: rest →
        queued t = rest ++ [f] ∧ t.mbFrame = g ∧ t.err = s.err ∧ t.trace = s.trace) ∧
      t.mbFlag = true ∧ t.rxState = .detectBreak ∧ t.phase = .idle ∧ t.lowCnt = 0 ∧ t.cd = s.cfg.tpb

/-! ## Queue and Mailbox -/

/-- R150: the head index advances; if it meets the tail the queue was full: OVERRUN, and the tail advances, dropping
the oldest queued frame. -/
def Obligations.QCommitAdvancesHead : Prop :=
  ∀ s : State, s.cfg.WF →
    let h := (s.head + 1) % s.cfg.qcap
    (h ≠ s.tail → exec .qCommit s = .next { s with head := h, result := .nothing }) ∧
    (h = s.tail → exec .qCommit s = .next { s with
      head := h, tail := (s.tail + 1) % s.cfg.qcap, err := true, trace := s.trace ++ [.overrun], result := .nothing })

/-- R152: with the Mailbox empty and the queue not, the frame at the tail is copied whole, the tail advances and the
flag is set; otherwise nothing moves. -/
def Obligations.HandoffMovesOldestFrame : Prop :=
  ∀ s : State, s.cfg.WF →
    (∀ f, s.mbFlag = false → s.head ≠ s.tail → s.slots[s.tail]? = some f →
      exec .handoff s = .next { s with
        mbFrame := f, tail := (s.tail + 1) % s.cfg.qcap, mbFlag := true, result := .nothing }) ∧
    (s.mbFlag = true ∨ s.head = s.tail → exec .handoff s = .next { s with result := .nothing })

/-- 44_queue_handoff.md section 1 (derived there): the ring of slots is a first-in first-out list of at most `QCAP - 1`
frames: a commit appends the head slot's frame, dropping the oldest queued frame when the list is full, and a handoff
takes the oldest. -/
def Obligations.QueueIsFifo : Prop :=
  ∀ (s : State) (f : FrameBuffer), s.cfg.WF → StorageShape s → s.slots[s.head]? = some f →
    (queued s).length < s.cfg.qcap ∧
    (∃ t, exec .qCommit s = .next t ∧
      queued t = (if (queued s).length = s.cfg.qcap - 1 then (queued s).tail else queued s) ++ [f]) ∧
    (∃ t, exec .handoff s = .next t ∧
      (s.mbFlag = true → queued t = queued s ∧ t.mbFrame = s.mbFrame) ∧
      (s.mbFlag = false → queued s = [] → t.mbFlag = false) ∧
      (∀ g rest, s.mbFlag = false → queued s = g :: rest → queued t = rest ∧ t.mbFrame = g ∧ t.mbFlag = true))

/-- R27: `mb.flag` is 0 at reset; it is set by HANDOFF, in whichever operation ends with it, and by nothing else, and
then the Mailbox frame is the frame that was moved; READ_NEXT_FRAME and INIT clear it, and nothing else does; and while
it is set no operation but INIT writes the Mailbox frame, so it holds the frame the consumer has not claimed. -/
def Obligations.MailboxFlagGatesTheFrame : Prop :=
  State.reset.mbFlag = false ∧
  ∀ (i : Instr) (s t : State), exec i s = .next t →
    (i = .readNextFrame ∨ i = .init → t.mbFlag = false) ∧
    (s.mbFlag = true → t.mbFlag = false → i = .readNextFrame ∨ i = .init) ∧
    (s.mbFlag = false → t.mbFlag = true →
      (i = .handoff ∨ i = .callback ∨ i = .waitPoll ∨ ∃ l, i = .tick l) ∧
      ∃ u, handoff u = .next t ∧ u.mbFlag = false ∧ u.slots[u.tail]? = some t.mbFrame) ∧
    (s.mbFlag = true → i ≠ .init → t.mbFrame = s.mbFrame)

/-! ## Consumer -/

/-- 45_consumer.md, READ_NEXT_FRAME (its result leaves out the undefined bytes by D20): the count and the first `count`
bytes, clearing the flag; or none, changing no element of the core. -/
def Obligations.ReadNextFrameClaimsTheMailbox : Prop :=
  ∀ s : State, s.cfg.WF →
    (s.mbFlag = true → exec .readNextFrame s = .next { s with
      mbFlag := false, result := .frame s.mbFrame.count (s.mbFrame.bytes.take s.mbFrame.count) }) ∧
    (s.mbFlag = false → exec .readNextFrame s = .next { s with result := .noFrame })

/-- R161: HAS_ERRORS returns the Error Flag and changes nothing. -/
def Obligations.HasErrorsReturnsTheFlag : Prop :=
  ∀ s : State, s.cfg.WF → exec .hasErrors s = .next { s with result := .bit s.err }

/-- R162: CLEAR_ERRORS resets the flag, and HAS_ERRORS right after it returns false. -/
def Obligations.ClearErrorsResetsTheFlag : Prop :=
  ∀ s : State, s.cfg.WF →
    exec .clearErrors s = .next { s with err := false, result := .nothing } ∧
    andThen (exec .clearErrors s) (exec .hasErrors) = .next { s with err := false, result := .bit false }

/-- 45_consumer.md, TAKE_ERRORS (D14): with the option, the flag's value and the clear in one step; without it, the
operation is not there. -/
def Obligations.TakeErrorsFetchesAndClears : Prop :=
  ∀ s : State, s.cfg.WF →
    (s.cfg.optTakeErrors = true → exec .takeErrors s = .next { s with err := false, result := .bit s.err }) ∧
    (s.cfg.optTakeErrors = false → exec .takeErrors s = .refused .optionAbsent)

/-- R57: the side effects of reads. A second READ_NEXT_FRAME returns no frame, a second TAKE_ERRORS false; HAS_ERRORS
and CLEAR_ERRORS done twice leave what they leave once; and HANDOFF's read advances the tail. -/
def Obligations.ReadsHaveTheseSideEffects : Prop :=
  ∀ s : State, s.cfg.WF →
    (s.mbFlag = true → ∃ t u, exec .readNextFrame s = .next t ∧ t.mbFlag = false ∧ exec .readNextFrame t = .next u ∧
      u.result = .noFrame) ∧
    (s.cfg.optTakeErrors = true → ∃ t u, exec .takeErrors s = .next t ∧ t.err = false ∧ exec .takeErrors t = .next u ∧
      u.result = .bit false) ∧
    (∃ t, exec .hasErrors s = .next t ∧ t = { s with result := t.result } ∧ exec .hasErrors t = .next t) ∧
    (∃ t, exec .clearErrors s = .next t ∧ exec .clearErrors t = .next t) ∧
    (∀ t, exec .handoff s = .next t → s.mbFlag = false → s.head ≠ s.tail → t.tail = (s.tail + 1) % s.cfg.qcap)

/-- R164: no consumer operation blocks (each completes), and none reaches anything but the Mailbox and the Error Flag:
it writes at most `mb.flag` and `err`, and what it returns depends on nothing else. -/
def Obligations.ConsumerReachesOnlyMailboxAndErr : Prop :=
  ∀ (i : Instr) (s : State), i = .readNextFrame ∨ i = .hasErrors ∨ i = .clearErrors ∨ i = .takeErrors →
    s.cfg.WF → i.WF s.cfg = true →
    ∃ t, exec i s = .next t ∧ t = { s with mbFlag := t.mbFlag, err := t.err, result := t.result } ∧
      ∀ s' t', s'.cfg = s.cfg → s'.mbFlag = s.mbFlag → s'.mbFrame = s.mbFrame → s'.err = s.err →
        exec i s' = .next t' → t'.result = t.result ∧ t'.mbFlag = t.mbFlag ∧ t'.err = t.err

/-! ## Errors -/

/-- R172: the Error Flag is set and the event recorded; nothing else, and no control is transferred. -/
def Obligations.RaiseFrameErrorSetsTheFlag : Prop :=
  ∀ (c : Cause) (s : State), s.cfg.WF →
    exec (.raiseFrameError c) s = .next { s with err := true, trace := s.trace ++ [c], result := .nothing }

/-- R26: the flag is 0 at reset; it is set only by raising one of the five causes, which the trace records, and once
set it stays set through every operation but INIT and the consumer's CLEAR_ERRORS and TAKE_ERRORS; HAS_ERRORS and
TAKE_ERRORS read it. It is one bit and keeps no cause. -/
def Obligations.ErrorFlagIsSticky : Prop :=
  State.reset.err = false ∧
  ∀ (i : Instr) (s t : State), exec i s = .next t →
    (i = .hasErrors ∨ i = .takeErrors → t.result = .bit s.err) ∧
    (s.err = true → i ≠ .init → i ≠ .clearErrors → i ≠ .takeErrors → t.err = true) ∧
    (s.err = false → t.err = true → ∃ c, t.trace = s.trace ++ [c])

/-- 60_exceptions.md sections 1 and 2 (at most one error is derived there) and 42_detect_break.md section 2 (the reset
of every counter is D23): a TICK raises at most one FrameError, and after one the producer is in `DetectBreak` with
every counter reset, in the same step. -/
def Obligations.OneErrorPerTickThenDetectBreak : Prop :=
  ∀ (l : Level) (s t : State), exec (.tick l) s = .next t →
    t.trace = s.trace ∨
    ∃ c, t.trace = s.trace ++ [c] ∧ t.err = true ∧ t.rxState = .detectBreak ∧ t.phase = .idle ∧ t.lowCnt = 0 ∧
      t.bytesRead = 0 ∧ t.bitCnt = 0 ∧ t.acc = 0x00 ∧ t.mask = 0x01

/-- 60_exceptions.md section 5 (the race is kept by D14): an error raised between a consumer's HAS_ERRORS and its
CLEAR_ERRORS is lost: HAS_ERRORS returned 0, the flag ends 0, and the error was raised. With TAKE_ERRORS instead it is
reported. -/
def Obligations.ErrorBetweenReadAndClearIsLost : Prop :=
  ∀ (l : Level) (s u : State), s.cfg.WF → s.err = false →
    exec (.tick l) { s with result := .bit false } = .next u → u.trace ≠ s.trace →
    exec .hasErrors s = .next { s with result := .bit false } ∧ u.err = true ∧
    (∃ v, exec .clearErrors u = .next v ∧ v.err = false ∧ exec .hasErrors v = .next { v with result := .bit false }) ∧
    (s.cfg.optTakeErrors = true → ∃ v, exec .takeErrors u = .next v ∧ v.result = .bit true ∧ v.err = false)

/-! ## Frames, invariants and what cannot be observed -/

/-- 10_state.md sections 1 and 4 and 60_exceptions.md section 3: no operation writes the configuration or the inputs,
and none but TICK writes the Tick Source counter, which TICK advances by one modulo `2^TICK_W`. -/
def Obligations.OnlyTickMovesTheCounter : Prop :=
  ∀ (i : Instr) (s t : State), exec i s = .next t →
    t.cfg = s.cfg ∧ t.pending = s.pending ∧ t.uop = s.uop ∧
    ((∀ l, i ≠ .tick l) → t.now = s.now) ∧ ((∃ l, i = .tick l) → t.now = (s.now + 1) % 2 ^ s.cfg.tickW)

/-- 10_state.md section 5 (derived there) and 20_memory.md section 1: whatever an operation but INIT does, it writes no
slot but the head slot, and there at most the count and the one byte at the old count; no slot appears or vanishes; and
a form that stores nothing (`StoresNothing` names each) leaves all slots as they were. -/
def Obligations.ProducerWritesOnlyTheHeadSlot : Prop :=
  ∀ (i : Instr) (s t : State), i ≠ .init → exec i s = .next t →
    (StoresNothing s i → t.slots = s.slots) ∧
    t.slots.length = s.slots.length ∧ (∀ j, j ≠ s.head → t.slots[j]? = s.slots[j]?) ∧
    ∀ f g, s.slots[s.head]? = some f → t.slots[s.head]? = some g →
      g.bytes.length = f.bytes.length ∧ ∀ j, j ≠ f.count → g.bytes[j]? = f.bytes[j]?

/-- The invariant holds in the state INIT leaves, for every well-formed configuration and every draw of the counter. -/
def Obligations.PowerOnSatisfiesInv : Prop :=
  ∀ (c : Config) (n : Nat), c.WF → n < 2 ^ c.tickW → RunInv (State.powerOn c n)

/-- 10_state.md section 5 (derived there): every step of the core keeps the invariant, which holds the widths and ranges
of the tables, the buffers' and the queue's bounds, the agreement of the two byte counts, the three open waits, and
the length of every queued and delivered frame. -/
def Obligations.StepKeepsInv : Prop :=
  ∀ s t : State, RunInv s → step s = .next t → RunInv t

/-- 60_exceptions.md section 1, "Nothing is fatal": from a state of a run, every operation the port can present
completes; a step stops only at a reserved word. -/
def Obligations.NothingIsFatal : Prop :=
  ∀ s : State, RunInv s →
    (∀ i : Instr, i.isPort = true → i.WF s.cfg = true → ∃ t, exec i s = .next t) ∧
    ((∃ t, step s = .next t) ∨ ∃ w why, step s = .refused (.reservedWord w why))

/-- 45_consumer.md, READ_NEXT_FRAME (derived there): a frame delivered in a run is whole: between `FMIN` and `FMAX`
bytes, exactly as many as its count. -/
def Obligations.DeliveredFrameIsWhole : Prop :=
  ∀ (s t : State) (n : Nat) (bs : List Byte), RunInv s → exec .readNextFrame s = .next t → t.result = .frame n bs →
    s.cfg.fmin ≤ n ∧ n ≤ s.cfg.fmax ∧ bs.length = n

/-- 10_state.md section 5, "No port operation returns them" (D20): states that differ only in the undefined bytes of
their Frame Buffers cannot be told apart: every operation keeps them so, with equal results and stops. -/
def Obligations.UndefinedBytesAreInvisible : Prop :=
  ∀ (i : Instr) (s t : State), SameUpToUndefinedBytes s t → SameOutcome SameUpToUndefinedBytes (exec i s) (exec i t)

/-- 10_state.md section 1, "No rule depends on its absolute value" (D10): runs that differ only in the origin of the
Tick Source counter cannot be told apart by port operations. -/
def Obligations.CounterOriginIsInvisible : Prop :=
  ∀ (d : Nat) (i : Instr) (s t : State), i.isPort = true → SameUpToOrigin d s t →
    SameOutcome (SameUpToOrigin d) (exec i s) (exec i t)
end

