-- ==== Sys2Proof/Laws/State.lean ====
section
/-! SUPPORT. What each update of the state makes of each field: one lemma per field per update, so that no later proof
unfolds a record update. -/

namespace Sys2Proof.Machine

variable (s : State)

-- setErr
@[simp] theorem setErr_rxState : (setErr s).rxState = s.rxState := rfl
@[simp] theorem setErr_lowCnt : (setErr s).lowCnt = s.lowCnt := rfl
@[simp] theorem setErr_bytesRead : (setErr s).bytesRead = s.bytesRead := rfl
@[simp] theorem setErr_bitCnt : (setErr s).bitCnt = s.bitCnt := rfl
@[simp] theorem setErr_acc : (setErr s).acc = s.acc := rfl
@[simp] theorem setErr_mask : (setErr s).mask = s.mask := rfl
@[simp] theorem setErr_cd : (setErr s).cd = s.cd := rfl
@[simp] theorem setErr_phase : (setErr s).phase = s.phase := rfl
@[simp] theorem setErr_wLevel : (setErr s).wLevel = s.wLevel := rfl
@[simp] theorem setErr_wBase : (setErr s).wBase = s.wBase := rfl
@[simp] theorem setErr_wMax : (setErr s).wMax = s.wMax := rfl
@[simp] theorem setErr_wCont : (setErr s).wCont = s.wCont := rfl
@[simp] theorem setErr_slots : (setErr s).slots = s.slots := rfl
@[simp] theorem setErr_head : (setErr s).head = s.head := rfl
@[simp] theorem setErr_tail : (setErr s).tail = s.tail := rfl
@[simp] theorem setErr_mbFlag : (setErr s).mbFlag = s.mbFlag := rfl
@[simp] theorem setErr_mbFrame : (setErr s).mbFrame = s.mbFrame := rfl
@[simp] theorem setErr_err : (setErr s).err = true := rfl
@[simp] theorem setErr_now : (setErr s).now = s.now := rfl
@[simp] theorem setErr_cfg : (setErr s).cfg = s.cfg := rfl
@[simp] theorem setErr_pending : (setErr s).pending = s.pending := rfl
@[simp] theorem setErr_uop : (setErr s).uop = s.uop := rfl
@[simp] theorem setErr_result : (setErr s).result = s.result := rfl
@[simp] theorem setErr_trace : (setErr s).trace = s.trace := rfl

-- clearErr
@[simp] theorem clearErr_rxState : (clearErr s).rxState = s.rxState := rfl
@[simp] theorem clearErr_lowCnt : (clearErr s).lowCnt = s.lowCnt := rfl
@[simp] theorem clearErr_bytesRead : (clearErr s).bytesRead = s.bytesRead := rfl
@[simp] theorem clearErr_bitCnt : (clearErr s).bitCnt = s.bitCnt := rfl
@[simp] theorem clearErr_acc : (clearErr s).acc = s.acc := rfl
@[simp] theorem clearErr_mask : (clearErr s).mask = s.mask := rfl
@[simp] theorem clearErr_cd : (clearErr s).cd = s.cd := rfl
@[simp] theorem clearErr_phase : (clearErr s).phase = s.phase := rfl
@[simp] theorem clearErr_wLevel : (clearErr s).wLevel = s.wLevel := rfl
@[simp] theorem clearErr_wBase : (clearErr s).wBase = s.wBase := rfl
@[simp] theorem clearErr_wMax : (clearErr s).wMax = s.wMax := rfl
@[simp] theorem clearErr_wCont : (clearErr s).wCont = s.wCont := rfl
@[simp] theorem clearErr_slots : (clearErr s).slots = s.slots := rfl
@[simp] theorem clearErr_head : (clearErr s).head = s.head := rfl
@[simp] theorem clearErr_tail : (clearErr s).tail = s.tail := rfl
@[simp] theorem clearErr_mbFlag : (clearErr s).mbFlag = s.mbFlag := rfl
@[simp] theorem clearErr_mbFrame : (clearErr s).mbFrame = s.mbFrame := rfl
@[simp] theorem clearErr_err : (clearErr s).err = false := rfl
@[simp] theorem clearErr_now : (clearErr s).now = s.now := rfl
@[simp] theorem clearErr_cfg : (clearErr s).cfg = s.cfg := rfl
@[simp] theorem clearErr_pending : (clearErr s).pending = s.pending := rfl
@[simp] theorem clearErr_uop : (clearErr s).uop = s.uop := rfl
@[simp] theorem clearErr_result : (clearErr s).result = s.result := rfl
@[simp] theorem clearErr_trace : (clearErr s).trace = s.trace := rfl

-- setMbFlag
@[simp] theorem setMbFlag_rxState : (setMbFlag s).rxState = s.rxState := rfl
@[simp] theorem setMbFlag_lowCnt : (setMbFlag s).lowCnt = s.lowCnt := rfl
@[simp] theorem setMbFlag_bytesRead : (setMbFlag s).bytesRead = s.bytesRead := rfl
@[simp] theorem setMbFlag_bitCnt : (setMbFlag s).bitCnt = s.bitCnt := rfl
@[simp] theorem setMbFlag_acc : (setMbFlag s).acc = s.acc := rfl
@[simp] theorem setMbFlag_mask : (setMbFlag s).mask = s.mask := rfl
@[simp] theorem setMbFlag_cd : (setMbFlag s).cd = s.cd := rfl
@[simp] theorem setMbFlag_phase : (setMbFlag s).phase = s.phase := rfl
@[simp] theorem setMbFlag_wLevel : (setMbFlag s).wLevel = s.wLevel := rfl
@[simp] theorem setMbFlag_wBase : (setMbFlag s).wBase = s.wBase := rfl
@[simp] theorem setMbFlag_wMax : (setMbFlag s).wMax = s.wMax := rfl
@[simp] theorem setMbFlag_wCont : (setMbFlag s).wCont = s.wCont := rfl
@[simp] theorem setMbFlag_slots : (setMbFlag s).slots = s.slots := rfl
@[simp] theorem setMbFlag_head : (setMbFlag s).head = s.head := rfl
@[simp] theorem setMbFlag_tail : (setMbFlag s).tail = s.tail := rfl
@[simp] theorem setMbFlag_mbFlag : (setMbFlag s).mbFlag = true := rfl
@[simp] theorem setMbFlag_mbFrame : (setMbFlag s).mbFrame = s.mbFrame := rfl
@[simp] theorem setMbFlag_err : (setMbFlag s).err = s.err := rfl
@[simp] theorem setMbFlag_now : (setMbFlag s).now = s.now := rfl
@[simp] theorem setMbFlag_cfg : (setMbFlag s).cfg = s.cfg := rfl
@[simp] theorem setMbFlag_pending : (setMbFlag s).pending = s.pending := rfl
@[simp] theorem setMbFlag_uop : (setMbFlag s).uop = s.uop := rfl
@[simp] theorem setMbFlag_result : (setMbFlag s).result = s.result := rfl
@[simp] theorem setMbFlag_trace : (setMbFlag s).trace = s.trace := rfl

-- clearMbFlag
@[simp] theorem clearMbFlag_rxState : (clearMbFlag s).rxState = s.rxState := rfl
@[simp] theorem clearMbFlag_lowCnt : (clearMbFlag s).lowCnt = s.lowCnt := rfl
@[simp] theorem clearMbFlag_bytesRead : (clearMbFlag s).bytesRead = s.bytesRead := rfl
@[simp] theorem clearMbFlag_bitCnt : (clearMbFlag s).bitCnt = s.bitCnt := rfl
@[simp] theorem clearMbFlag_acc : (clearMbFlag s).acc = s.acc := rfl
@[simp] theorem clearMbFlag_mask : (clearMbFlag s).mask = s.mask := rfl
@[simp] theorem clearMbFlag_cd : (clearMbFlag s).cd = s.cd := rfl
@[simp] theorem clearMbFlag_phase : (clearMbFlag s).phase = s.phase := rfl
@[simp] theorem clearMbFlag_wLevel : (clearMbFlag s).wLevel = s.wLevel := rfl
@[simp] theorem clearMbFlag_wBase : (clearMbFlag s).wBase = s.wBase := rfl
@[simp] theorem clearMbFlag_wMax : (clearMbFlag s).wMax = s.wMax := rfl
@[simp] theorem clearMbFlag_wCont : (clearMbFlag s).wCont = s.wCont := rfl
@[simp] theorem clearMbFlag_slots : (clearMbFlag s).slots = s.slots := rfl
@[simp] theorem clearMbFlag_head : (clearMbFlag s).head = s.head := rfl
@[simp] theorem clearMbFlag_tail : (clearMbFlag s).tail = s.tail := rfl
@[simp] theorem clearMbFlag_mbFlag : (clearMbFlag s).mbFlag = false := rfl
@[simp] theorem clearMbFlag_mbFrame : (clearMbFlag s).mbFrame = s.mbFrame := rfl
@[simp] theorem clearMbFlag_err : (clearMbFlag s).err = s.err := rfl
@[simp] theorem clearMbFlag_now : (clearMbFlag s).now = s.now := rfl
@[simp] theorem clearMbFlag_cfg : (clearMbFlag s).cfg = s.cfg := rfl
@[simp] theorem clearMbFlag_pending : (clearMbFlag s).pending = s.pending := rfl
@[simp] theorem clearMbFlag_uop : (clearMbFlag s).uop = s.uop := rfl
@[simp] theorem clearMbFlag_result : (clearMbFlag s).result = s.result := rfl
@[simp] theorem clearMbFlag_trace : (clearMbFlag s).trace = s.trace := rfl

-- returning
@[simp] theorem returning_rxState (r : OpResult) : (returning r s).rxState = s.rxState := rfl
@[simp] theorem returning_lowCnt (r : OpResult) : (returning r s).lowCnt = s.lowCnt := rfl
@[simp] theorem returning_bytesRead (r : OpResult) : (returning r s).bytesRead = s.bytesRead := rfl
@[simp] theorem returning_bitCnt (r : OpResult) : (returning r s).bitCnt = s.bitCnt := rfl
@[simp] theorem returning_acc (r : OpResult) : (returning r s).acc = s.acc := rfl
@[simp] theorem returning_mask (r : OpResult) : (returning r s).mask = s.mask := rfl
@[simp] theorem returning_cd (r : OpResult) : (returning r s).cd = s.cd := rfl
@[simp] theorem returning_phase (r : OpResult) : (returning r s).phase = s.phase := rfl
@[simp] theorem returning_wLevel (r : OpResult) : (returning r s).wLevel = s.wLevel := rfl
@[simp] theorem returning_wBase (r : OpResult) : (returning r s).wBase = s.wBase := rfl
@[simp] theorem returning_wMax (r : OpResult) : (returning r s).wMax = s.wMax := rfl
@[simp] theorem returning_wCont (r : OpResult) : (returning r s).wCont = s.wCont := rfl
@[simp] theorem returning_slots (r : OpResult) : (returning r s).slots = s.slots := rfl
@[simp] theorem returning_head (r : OpResult) : (returning r s).head = s.head := rfl
@[simp] theorem returning_tail (r : OpResult) : (returning r s).tail = s.tail := rfl
@[simp] theorem returning_mbFlag (r : OpResult) : (returning r s).mbFlag = s.mbFlag := rfl
@[simp] theorem returning_mbFrame (r : OpResult) : (returning r s).mbFrame = s.mbFrame := rfl
@[simp] theorem returning_err (r : OpResult) : (returning r s).err = s.err := rfl
@[simp] theorem returning_now (r : OpResult) : (returning r s).now = s.now := rfl
@[simp] theorem returning_cfg (r : OpResult) : (returning r s).cfg = s.cfg := rfl
@[simp] theorem returning_pending (r : OpResult) : (returning r s).pending = s.pending := rfl
@[simp] theorem returning_uop (r : OpResult) : (returning r s).uop = s.uop := rfl
@[simp] theorem returning_result (r : OpResult) : (returning r s).result = r := rfl
@[simp] theorem returning_trace (r : OpResult) : (returning r s).trace = s.trace := rfl

-- setSlot
@[simp] theorem setSlot_rxState (i : Nat) (f : FrameBuffer) : (setSlot i f s).rxState = s.rxState := rfl
@[simp] theorem setSlot_lowCnt (i : Nat) (f : FrameBuffer) : (setSlot i f s).lowCnt = s.lowCnt := rfl
@[simp] theorem setSlot_bytesRead (i : Nat) (f : FrameBuffer) : (setSlot i f s).bytesRead = s.bytesRead := rfl
@[simp] theorem setSlot_bitCnt (i : Nat) (f : FrameBuffer) : (setSlot i f s).bitCnt = s.bitCnt := rfl
@[simp] theorem setSlot_acc (i : Nat) (f : FrameBuffer) : (setSlot i f s).acc = s.acc := rfl
@[simp] theorem setSlot_mask (i : Nat) (f : FrameBuffer) : (setSlot i f s).mask = s.mask := rfl
@[simp] theorem setSlot_cd (i : Nat) (f : FrameBuffer) : (setSlot i f s).cd = s.cd := rfl
@[simp] theorem setSlot_phase (i : Nat) (f : FrameBuffer) : (setSlot i f s).phase = s.phase := rfl
@[simp] theorem setSlot_wLevel (i : Nat) (f : FrameBuffer) : (setSlot i f s).wLevel = s.wLevel := rfl
@[simp] theorem setSlot_wBase (i : Nat) (f : FrameBuffer) : (setSlot i f s).wBase = s.wBase := rfl
@[simp] theorem setSlot_wMax (i : Nat) (f : FrameBuffer) : (setSlot i f s).wMax = s.wMax := rfl
@[simp] theorem setSlot_wCont (i : Nat) (f : FrameBuffer) : (setSlot i f s).wCont = s.wCont := rfl
@[simp] theorem setSlot_slots (i : Nat) (f : FrameBuffer) : (setSlot i f s).slots = s.slots.set i f := rfl
@[simp] theorem setSlot_head (i : Nat) (f : FrameBuffer) : (setSlot i f s).head = s.head := rfl
@[simp] theorem setSlot_tail (i : Nat) (f : FrameBuffer) : (setSlot i f s).tail = s.tail := rfl
@[simp] theorem setSlot_mbFlag (i : Nat) (f : FrameBuffer) : (setSlot i f s).mbFlag = s.mbFlag := rfl
@[simp] theorem setSlot_mbFrame (i : Nat) (f : FrameBuffer) : (setSlot i f s).mbFrame = s.mbFrame := rfl
@[simp] theorem setSlot_err (i : Nat) (f : FrameBuffer) : (setSlot i f s).err = s.err := rfl
@[simp] theorem setSlot_now (i : Nat) (f : FrameBuffer) : (setSlot i f s).now = s.now := rfl
@[simp] theorem setSlot_cfg (i : Nat) (f : FrameBuffer) : (setSlot i f s).cfg = s.cfg := rfl
@[simp] theorem setSlot_pending (i : Nat) (f : FrameBuffer) : (setSlot i f s).pending = s.pending := rfl
@[simp] theorem setSlot_uop (i : Nat) (f : FrameBuffer) : (setSlot i f s).uop = s.uop := rfl
@[simp] theorem setSlot_result (i : Nat) (f : FrameBuffer) : (setSlot i f s).result = s.result := rfl
@[simp] theorem setSlot_trace (i : Nat) (f : FrameBuffer) : (setSlot i f s).trace = s.trace := rfl

-- advanceNow
@[simp] theorem advanceNow_rxState : (advanceNow s).rxState = s.rxState := rfl
@[simp] theorem advanceNow_lowCnt : (advanceNow s).lowCnt = s.lowCnt := rfl
@[simp] theorem advanceNow_bytesRead : (advanceNow s).bytesRead = s.bytesRead := rfl
@[simp] theorem advanceNow_bitCnt : (advanceNow s).bitCnt = s.bitCnt := rfl
@[simp] theorem advanceNow_acc : (advanceNow s).acc = s.acc := rfl
@[simp] theorem advanceNow_mask : (advanceNow s).mask = s.mask := rfl
@[simp] theorem advanceNow_cd : (advanceNow s).cd = s.cd := rfl
@[simp] theorem advanceNow_phase : (advanceNow s).phase = s.phase := rfl
@[simp] theorem advanceNow_wLevel : (advanceNow s).wLevel = s.wLevel := rfl
@[simp] theorem advanceNow_wBase : (advanceNow s).wBase = s.wBase := rfl
@[simp] theorem advanceNow_wMax : (advanceNow s).wMax = s.wMax := rfl
@[simp] theorem advanceNow_wCont : (advanceNow s).wCont = s.wCont := rfl
@[simp] theorem advanceNow_slots : (advanceNow s).slots = s.slots := rfl
@[simp] theorem advanceNow_head : (advanceNow s).head = s.head := rfl
@[simp] theorem advanceNow_tail : (advanceNow s).tail = s.tail := rfl
@[simp] theorem advanceNow_mbFlag : (advanceNow s).mbFlag = s.mbFlag := rfl
@[simp] theorem advanceNow_mbFrame : (advanceNow s).mbFrame = s.mbFrame := rfl
@[simp] theorem advanceNow_err : (advanceNow s).err = s.err := rfl
@[simp] theorem advanceNow_now : (advanceNow s).now = (s.now + 1) % 2 ^ s.cfg.tickW := rfl
@[simp] theorem advanceNow_cfg : (advanceNow s).cfg = s.cfg := rfl
@[simp] theorem advanceNow_pending : (advanceNow s).pending = s.pending := rfl
@[simp] theorem advanceNow_uop : (advanceNow s).uop = s.uop := rfl
@[simp] theorem advanceNow_result : (advanceNow s).result = s.result := rfl
@[simp] theorem advanceNow_trace : (advanceNow s).trace = s.trace := rfl

-- resetPeriodTimer
@[simp] theorem resetPeriodTimer_rxState : (resetPeriodTimer s).rxState = s.rxState := rfl
@[simp] theorem resetPeriodTimer_lowCnt : (resetPeriodTimer s).lowCnt = s.lowCnt := rfl
@[simp] theorem resetPeriodTimer_bytesRead : (resetPeriodTimer s).bytesRead = s.bytesRead := rfl
@[simp] theorem resetPeriodTimer_bitCnt : (resetPeriodTimer s).bitCnt = s.bitCnt := rfl
@[simp] theorem resetPeriodTimer_acc : (resetPeriodTimer s).acc = s.acc := rfl
@[simp] theorem resetPeriodTimer_mask : (resetPeriodTimer s).mask = s.mask := rfl
@[simp] theorem resetPeriodTimer_cd : (resetPeriodTimer s).cd = s.cfg.tpb := rfl
@[simp] theorem resetPeriodTimer_phase : (resetPeriodTimer s).phase = s.phase := rfl
@[simp] theorem resetPeriodTimer_wLevel : (resetPeriodTimer s).wLevel = s.wLevel := rfl
@[simp] theorem resetPeriodTimer_wBase : (resetPeriodTimer s).wBase = s.wBase := rfl
@[simp] theorem resetPeriodTimer_wMax : (resetPeriodTimer s).wMax = s.wMax := rfl
@[simp] theorem resetPeriodTimer_wCont : (resetPeriodTimer s).wCont = s.wCont := rfl
@[simp] theorem resetPeriodTimer_slots : (resetPeriodTimer s).slots = s.slots := rfl
@[simp] theorem resetPeriodTimer_head : (resetPeriodTimer s).head = s.head := rfl
@[simp] theorem resetPeriodTimer_tail : (resetPeriodTimer s).tail = s.tail := rfl
@[simp] theorem resetPeriodTimer_mbFlag : (resetPeriodTimer s).mbFlag = s.mbFlag := rfl
@[simp] theorem resetPeriodTimer_mbFrame : (resetPeriodTimer s).mbFrame = s.mbFrame := rfl
@[simp] theorem resetPeriodTimer_err : (resetPeriodTimer s).err = s.err := rfl
@[simp] theorem resetPeriodTimer_now : (resetPeriodTimer s).now = s.now := rfl
@[simp] theorem resetPeriodTimer_cfg : (resetPeriodTimer s).cfg = s.cfg := rfl
@[simp] theorem resetPeriodTimer_pending : (resetPeriodTimer s).pending = s.pending := rfl
@[simp] theorem resetPeriodTimer_uop : (resetPeriodTimer s).uop = s.uop := rfl
@[simp] theorem resetPeriodTimer_result : (resetPeriodTimer s).result = s.result := rfl
@[simp] theorem resetPeriodTimer_trace : (resetPeriodTimer s).trace = s.trace := rfl

-- scheduleNextIn
@[simp] theorem scheduleNextIn_rxState (k : Nat) : (scheduleNextIn k s).rxState = s.rxState := rfl
@[simp] theorem scheduleNextIn_lowCnt (k : Nat) : (scheduleNextIn k s).lowCnt = s.lowCnt := rfl
@[simp] theorem scheduleNextIn_bytesRead (k : Nat) : (scheduleNextIn k s).bytesRead = s.bytesRead := rfl
@[simp] theorem scheduleNextIn_bitCnt (k : Nat) : (scheduleNextIn k s).bitCnt = s.bitCnt := rfl
@[simp] theorem scheduleNextIn_acc (k : Nat) : (scheduleNextIn k s).acc = s.acc := rfl
@[simp] theorem scheduleNextIn_mask (k : Nat) : (scheduleNextIn k s).mask = s.mask := rfl
@[simp] theorem scheduleNextIn_cd (k : Nat) : (scheduleNextIn k s).cd = k := rfl
@[simp] theorem scheduleNextIn_phase (k : Nat) : (scheduleNextIn k s).phase = s.phase := rfl
@[simp] theorem scheduleNextIn_wLevel (k : Nat) : (scheduleNextIn k s).wLevel = s.wLevel := rfl
@[simp] theorem scheduleNextIn_wBase (k : Nat) : (scheduleNextIn k s).wBase = s.wBase := rfl
@[simp] theorem scheduleNextIn_wMax (k : Nat) : (scheduleNextIn k s).wMax = s.wMax := rfl
@[simp] theorem scheduleNextIn_wCont (k : Nat) : (scheduleNextIn k s).wCont = s.wCont := rfl
@[simp] theorem scheduleNextIn_slots (k : Nat) : (scheduleNextIn k s).slots = s.slots := rfl
@[simp] theorem scheduleNextIn_head (k : Nat) : (scheduleNextIn k s).head = s.head := rfl
@[simp] theorem scheduleNextIn_tail (k : Nat) : (scheduleNextIn k s).tail = s.tail := rfl
@[simp] theorem scheduleNextIn_mbFlag (k : Nat) : (scheduleNextIn k s).mbFlag = s.mbFlag := rfl
@[simp] theorem scheduleNextIn_mbFrame (k : Nat) : (scheduleNextIn k s).mbFrame = s.mbFrame := rfl
@[simp] theorem scheduleNextIn_err (k : Nat) : (scheduleNextIn k s).err = s.err := rfl
@[simp] theorem scheduleNextIn_now (k : Nat) : (scheduleNextIn k s).now = s.now := rfl
@[simp] theorem scheduleNextIn_cfg (k : Nat) : (scheduleNextIn k s).cfg = s.cfg := rfl
@[simp] theorem scheduleNextIn_pending (k : Nat) : (scheduleNextIn k s).pending = s.pending := rfl
@[simp] theorem scheduleNextIn_uop (k : Nat) : (scheduleNextIn k s).uop = s.uop := rfl
@[simp] theorem scheduleNextIn_result (k : Nat) : (scheduleNextIn k s).result = s.result := rfl
@[simp] theorem scheduleNextIn_trace (k : Nat) : (scheduleNextIn k s).trace = s.trace := rfl

-- resetCounters
@[simp] theorem resetCounters_rxState : (resetCounters s).rxState = s.rxState := rfl
@[simp] theorem resetCounters_lowCnt : (resetCounters s).lowCnt = 0 := rfl
@[simp] theorem resetCounters_bytesRead : (resetCounters s).bytesRead = 0 := rfl
@[simp] theorem resetCounters_bitCnt : (resetCounters s).bitCnt = 0 := rfl
@[simp] theorem resetCounters_acc : (resetCounters s).acc = 0x00 := rfl
@[simp] theorem resetCounters_mask : (resetCounters s).mask = 0x01 := rfl
@[simp] theorem resetCounters_cd : (resetCounters s).cd = s.cd := rfl
@[simp] theorem resetCounters_phase : (resetCounters s).phase = s.phase := rfl
@[simp] theorem resetCounters_wLevel : (resetCounters s).wLevel = s.wLevel := rfl
@[simp] theorem resetCounters_wBase : (resetCounters s).wBase = s.wBase := rfl
@[simp] theorem resetCounters_wMax : (resetCounters s).wMax = s.wMax := rfl
@[simp] theorem resetCounters_wCont : (resetCounters s).wCont = s.wCont := rfl
@[simp] theorem resetCounters_slots : (resetCounters s).slots = s.slots := rfl
@[simp] theorem resetCounters_head : (resetCounters s).head = s.head := rfl
@[simp] theorem resetCounters_tail : (resetCounters s).tail = s.tail := rfl
@[simp] theorem resetCounters_mbFlag : (resetCounters s).mbFlag = s.mbFlag := rfl
@[simp] theorem resetCounters_mbFrame : (resetCounters s).mbFrame = s.mbFrame := rfl
@[simp] theorem resetCounters_err : (resetCounters s).err = s.err := rfl
@[simp] theorem resetCounters_now : (resetCounters s).now = s.now := rfl
@[simp] theorem resetCounters_cfg : (resetCounters s).cfg = s.cfg := rfl
@[simp] theorem resetCounters_pending : (resetCounters s).pending = s.pending := rfl
@[simp] theorem resetCounters_uop : (resetCounters s).uop = s.uop := rfl
@[simp] theorem resetCounters_result : (resetCounters s).result = s.result := rfl
@[simp] theorem resetCounters_trace : (resetCounters s).trace = s.trace := rfl

-- enterDetectBreak
@[simp] theorem enterDetectBreak_rxState : (enterDetectBreak s).rxState = .detectBreak := rfl
@[simp] theorem enterDetectBreak_lowCnt : (enterDetectBreak s).lowCnt = 0 := rfl
@[simp] theorem enterDetectBreak_bytesRead : (enterDetectBreak s).bytesRead = 0 := rfl
@[simp] theorem enterDetectBreak_bitCnt : (enterDetectBreak s).bitCnt = 0 := rfl
@[simp] theorem enterDetectBreak_acc : (enterDetectBreak s).acc = 0x00 := rfl
@[simp] theorem enterDetectBreak_mask : (enterDetectBreak s).mask = 0x01 := rfl
@[simp] theorem enterDetectBreak_cd : (enterDetectBreak s).cd = s.cd := rfl
@[simp] theorem enterDetectBreak_phase : (enterDetectBreak s).phase = s.phase := rfl
@[simp] theorem enterDetectBreak_wLevel : (enterDetectBreak s).wLevel = s.wLevel := rfl
@[simp] theorem enterDetectBreak_wBase : (enterDetectBreak s).wBase = s.wBase := rfl
@[simp] theorem enterDetectBreak_wMax : (enterDetectBreak s).wMax = s.wMax := rfl
@[simp] theorem enterDetectBreak_wCont : (enterDetectBreak s).wCont = s.wCont := rfl
@[simp] theorem enterDetectBreak_slots : (enterDetectBreak s).slots = s.slots := rfl
@[simp] theorem enterDetectBreak_head : (enterDetectBreak s).head = s.head := rfl
@[simp] theorem enterDetectBreak_tail : (enterDetectBreak s).tail = s.tail := rfl
@[simp] theorem enterDetectBreak_mbFlag : (enterDetectBreak s).mbFlag = s.mbFlag := rfl
@[simp] theorem enterDetectBreak_mbFrame : (enterDetectBreak s).mbFrame = s.mbFrame := rfl
@[simp] theorem enterDetectBreak_err : (enterDetectBreak s).err = s.err := rfl
@[simp] theorem enterDetectBreak_now : (enterDetectBreak s).now = s.now := rfl
@[simp] theorem enterDetectBreak_cfg : (enterDetectBreak s).cfg = s.cfg := rfl
@[simp] theorem enterDetectBreak_pending : (enterDetectBreak s).pending = s.pending := rfl
@[simp] theorem enterDetectBreak_uop : (enterDetectBreak s).uop = s.uop := rfl
@[simp] theorem enterDetectBreak_result : (enterDetectBreak s).result = s.result := rfl
@[simp] theorem enterDetectBreak_trace : (enterDetectBreak s).trace = s.trace := rfl

-- raiseFrameError
@[simp] theorem raiseFrameError_rxState (c : Cause) : (raiseFrameError c s).rxState = s.rxState := rfl
@[simp] theorem raiseFrameError_lowCnt (c : Cause) : (raiseFrameError c s).lowCnt = s.lowCnt := rfl
@[simp] theorem raiseFrameError_bytesRead (c : Cause) : (raiseFrameError c s).bytesRead = s.bytesRead := rfl
@[simp] theorem raiseFrameError_bitCnt (c : Cause) : (raiseFrameError c s).bitCnt = s.bitCnt := rfl
@[simp] theorem raiseFrameError_acc (c : Cause) : (raiseFrameError c s).acc = s.acc := rfl
@[simp] theorem raiseFrameError_mask (c : Cause) : (raiseFrameError c s).mask = s.mask := rfl
@[simp] theorem raiseFrameError_cd (c : Cause) : (raiseFrameError c s).cd = s.cd := rfl
@[simp] theorem raiseFrameError_phase (c : Cause) : (raiseFrameError c s).phase = s.phase := rfl
@[simp] theorem raiseFrameError_wLevel (c : Cause) : (raiseFrameError c s).wLevel = s.wLevel := rfl
@[simp] theorem raiseFrameError_wBase (c : Cause) : (raiseFrameError c s).wBase = s.wBase := rfl
@[simp] theorem raiseFrameError_wMax (c : Cause) : (raiseFrameError c s).wMax = s.wMax := rfl
@[simp] theorem raiseFrameError_wCont (c : Cause) : (raiseFrameError c s).wCont = s.wCont := rfl
@[simp] theorem raiseFrameError_slots (c : Cause) : (raiseFrameError c s).slots = s.slots := rfl
@[simp] theorem raiseFrameError_head (c : Cause) : (raiseFrameError c s).head = s.head := rfl
@[simp] theorem raiseFrameError_tail (c : Cause) : (raiseFrameError c s).tail = s.tail := rfl
@[simp] theorem raiseFrameError_mbFlag (c : Cause) : (raiseFrameError c s).mbFlag = s.mbFlag := rfl
@[simp] theorem raiseFrameError_mbFrame (c : Cause) : (raiseFrameError c s).mbFrame = s.mbFrame := rfl
@[simp] theorem raiseFrameError_err (c : Cause) : (raiseFrameError c s).err = true := rfl
@[simp] theorem raiseFrameError_now (c : Cause) : (raiseFrameError c s).now = s.now := rfl
@[simp] theorem raiseFrameError_cfg (c : Cause) : (raiseFrameError c s).cfg = s.cfg := rfl
@[simp] theorem raiseFrameError_pending (c : Cause) : (raiseFrameError c s).pending = s.pending := rfl
@[simp] theorem raiseFrameError_uop (c : Cause) : (raiseFrameError c s).uop = s.uop := rfl
@[simp] theorem raiseFrameError_result (c : Cause) : (raiseFrameError c s).result = s.result := rfl
@[simp] theorem raiseFrameError_trace (c : Cause) : (raiseFrameError c s).trace = s.trace ++ [c] := rfl

-- failFrame
@[simp] theorem failFrame_rxState (c : Cause) : (failFrame c s).rxState = .detectBreak := rfl
@[simp] theorem failFrame_lowCnt (c : Cause) : (failFrame c s).lowCnt = 0 := rfl
@[simp] theorem failFrame_bytesRead (c : Cause) : (failFrame c s).bytesRead = 0 := rfl
@[simp] theorem failFrame_bitCnt (c : Cause) : (failFrame c s).bitCnt = 0 := rfl
@[simp] theorem failFrame_acc (c : Cause) : (failFrame c s).acc = 0x00 := rfl
@[simp] theorem failFrame_mask (c : Cause) : (failFrame c s).mask = 0x01 := rfl
@[simp] theorem failFrame_cd (c : Cause) : (failFrame c s).cd = s.cd := rfl
@[simp] theorem failFrame_phase (c : Cause) : (failFrame c s).phase = s.phase := rfl
@[simp] theorem failFrame_wLevel (c : Cause) : (failFrame c s).wLevel = s.wLevel := rfl
@[simp] theorem failFrame_wBase (c : Cause) : (failFrame c s).wBase = s.wBase := rfl
@[simp] theorem failFrame_wMax (c : Cause) : (failFrame c s).wMax = s.wMax := rfl
@[simp] theorem failFrame_wCont (c : Cause) : (failFrame c s).wCont = s.wCont := rfl
@[simp] theorem failFrame_slots (c : Cause) : (failFrame c s).slots = s.slots := rfl
@[simp] theorem failFrame_head (c : Cause) : (failFrame c s).head = s.head := rfl
@[simp] theorem failFrame_tail (c : Cause) : (failFrame c s).tail = s.tail := rfl
@[simp] theorem failFrame_mbFlag (c : Cause) : (failFrame c s).mbFlag = s.mbFlag := rfl
@[simp] theorem failFrame_mbFrame (c : Cause) : (failFrame c s).mbFrame = s.mbFrame := rfl
@[simp] theorem failFrame_err (c : Cause) : (failFrame c s).err = true := rfl
@[simp] theorem failFrame_now (c : Cause) : (failFrame c s).now = s.now := rfl
@[simp] theorem failFrame_cfg (c : Cause) : (failFrame c s).cfg = s.cfg := rfl
@[simp] theorem failFrame_pending (c : Cause) : (failFrame c s).pending = s.pending := rfl
@[simp] theorem failFrame_uop (c : Cause) : (failFrame c s).uop = s.uop := rfl
@[simp] theorem failFrame_result (c : Cause) : (failFrame c s).result = s.result := rfl
@[simp] theorem failFrame_trace (c : Cause) : (failFrame c s).trace = s.trace ++ [c] := rfl

end Sys2Proof.Machine
end

