-- ==== Sys2Proof/Laws/Ops.lean ====
section
/-! SUPPORT. One lemma per shared operation that says everything it can do: what it answers, or what holds when it
answers a next state. -/

namespace Sys2Proof.Machine

/-! ## Sequencing -/

@[simp] theorem andThen_next (s : State) (k : State → Res) : andThen (.next s) k = k s := rfl
@[simp] theorem andThen_fault (f : Fault) (k : State → Res) : andThen (.fault f) k = .fault f := rfl
@[simp] theorem andThen_refused (x : Refusal) (k : State → Res) : andThen (.refused x) k = .refused x := rfl

theorem andThen_eq_next {r : Res} {k : State → Res} {t : State} :
    andThen r k = .next t ↔ ∃ s, r = .next s ∧ k s = .next t := by
  cases r <;> simp

theorem perform_of_wf {act : State → Res} {s : State} (h : s.cfg.WF) :
    perform act s = act (returning .nothing s) := if_pos h

theorem perform_of_not_wf {act : State → Res} {s : State} (h : ¬s.cfg.WF) :
    perform act s = .refused .illFormedConfig := if_neg h

theorem perform_eq_next {act : State → Res} {s t : State} :
    perform act s = .next t ↔ s.cfg.WF ∧ act (returning .nothing s) = .next t := by
  by_cases h : s.cfg.WF
  · rw [perform_of_wf h]; exact ⟨fun e => ⟨h, e⟩, And.right⟩
  · rw [perform_of_not_wf h]; exact ⟨nofun, fun e => absurd e.1 h⟩

theorem withOperand_eq_next {x : Except Refusal Nat} {act : Nat → Res} {t : State} :
    withOperand x act = .next t ↔ ∃ n, x = .ok n ∧ act n = .next t := by
  cases x <;> simp [withOperand]

theorem maxOperand_of_lt {s : State} (h : s.uop.max < 2 ^ s.cfg.tickW) : maxOperand s = .ok s.uop.max := if_pos h

theorem offsetOperand_of_pos {s : State} (h : 1 ≤ s.uop.k) : offsetOperand s = .ok s.uop.k := if_pos h

/-! ## The slot store -/

theorem withSlot_of_some {s : State} {i : Nat} {f : FrameBuffer} {k : FrameBuffer → Res} (h : s.slots[i]? = some f) :
    withSlot s i k = k f := by simp [withSlot, h]

theorem withSlot_of_none {s : State} {i : Nat} {k : FrameBuffer → Res} (h : s.slots[i]? = none) :
    withSlot s i k = .fault (.noSlot i) := by simp [withSlot, h]

theorem withSlot_eq_next {s : State} {i : Nat} {k : FrameBuffer → Res} {t : State} :
    withSlot s i k = .next t ↔ ∃ f, s.slots[i]? = some f ∧ k f = .next t := by
  cases h : s.slots[i]? <;> simp [withSlot, h]

theorem nextIndex_lt {c : Config} (h : 2 ≤ c.qcap) (i : Nat) : nextIndex c i < c.qcap := Nat.mod_lt _ (by omega)

/-! ## The Tick Source -/

theorem wrapSub_lt (w now base : Nat) : wrapSub w now base < 2 ^ w := Nat.mod_lt _ (Nat.two_pow_pos w)

theorem wrapSub_self (w n : Nat) : wrapSub w n n = 0 := by
  have hw := Nat.two_pow_pos w
  have hn := Nat.mod_lt n hw
  have e : n + (2 ^ w - n % 2 ^ w) = 2 ^ w * (n / 2 ^ w + 1) := by
    have := Nat.div_add_mod n (2 ^ w)
    rw [Nat.mul_add, Nat.mul_one]
    omega
  rw [wrapSub, e, Nat.mul_mod_right]

/-- Wrap-safe subtraction is subtraction of integers modulo `2^w` (R106). -/
theorem wrapSub_eq_emod (w now base : Nat) : (wrapSub w now base : Int) = ((now : Int) - base) % 2 ^ w := by
  have hw := Nat.two_pow_pos w
  have hb := Nat.mod_lt base hw
  have e : ((2 ^ w - base % 2 ^ w : Nat) : Int) = 2 ^ w - (base % 2 ^ w : Nat) := by
    rw [Nat.cast_sub hb.le]; push_cast; rfl
  rw [wrapSub, Int.natCast_mod, Nat.cast_add, e]
  push_cast
  rw [show (now : Int) + (2 ^ w - (base : Int) % 2 ^ w) = now - base % 2 ^ w + 2 ^ w by ring, Int.add_emod_right]
  simp [Int.sub_emod]

/-- The elapsed ticks grow by one a tick, modulo `2^TICK_W` (R106). -/
theorem wrapSub_succ (w now base : Nat) : wrapSub w ((now + 1) % 2 ^ w) base = (wrapSub w now base + 1) % 2 ^ w := by
  simp only [wrapSub, Nat.mod_add_mod]
  congr 1
  omega

@[simp] theorem elapsed_advanceNow (s : State) : elapsed (advanceNow s) = (elapsed s + 1) % 2 ^ s.cfg.tickW :=
  wrapSub_succ ..

/-! ## The queue -/

theorem qCommit_of_free {s : State} (h : nextIndex s.cfg s.head ≠ s.tail) :
    qCommit s = { s with head := nextIndex s.cfg s.head } := by simp [qCommit, h]

theorem qCommit_of_full {s : State} (h : nextIndex s.cfg s.head = s.tail) :
    qCommit s = { s with head := s.tail, tail := nextIndex s.cfg s.tail, err := true, trace := s.trace ++ [.overrun] } := by
  simp [qCommit, raiseFrameError, setErr, h]

theorem handoff_of_idle {s : State} (h : s.mbFlag = true ∨ s.head = s.tail) : handoff s = .next s := by
  rcases h with h | h <;> simp [handoff, h]

theorem handoff_of_moves {s : State} {f : FrameBuffer} (hf : s.mbFlag = false) (hq : s.head ≠ s.tail)
    (h : s.slots[s.tail]? = some f) :
    handoff s = .next { s with mbFrame := f, tail := nextIndex s.cfg s.tail, mbFlag := true } := by
  simp [handoff, hf, hq, withSlot_of_some h, setMbFlag]

/-- All HANDOFF can do when it answers: nothing, or move the oldest queued frame (R152). -/
theorem handoff_cases {s t : State} (h : handoff s = .next t) :
    ((s.mbFlag = true ∨ s.head = s.tail) ∧ t = s) ∨
    ∃ f, s.mbFlag = false ∧ s.head ≠ s.tail ∧ s.slots[s.tail]? = some f ∧
      t = { s with mbFrame := f, tail := nextIndex s.cfg s.tail, mbFlag := true } := by
  unfold handoff at h
  split at h
  next hc =>
    obtain ⟨f, hf, e⟩ := withSlot_eq_next.1 h
    exact .inr ⟨f, hc.1, hc.2, hf, by cases e; rfl⟩
  next hc =>
    refine .inl ⟨?_, by cases h; rfl⟩
    by_cases hm : s.mbFlag = true
    · exact .inl hm
    · exact .inr (by simpa [hm] using hc)

theorem epilogue_of_idle {s : State} (h : s.phase = .idle) : epilogue s = handoff s := if_pos h

theorem epilogue_of_wait {s : State} (h : s.phase = .wait) : epilogue s = .next s := by simp [epilogue, h]

/-! ## Waits -/

/-- The three ways a wait starts (R111). -/
theorem waitWith_of_zero (k : WaitResult → State → Res) (level : Level) (cont : WaitCont) (l : Level) (s : State) :
    waitWith k level 0 cont l s = k .fail { s with wBase := s.now, cd := s.cfg.tpb } := rfl

theorem waitWith_of_level {k : WaitResult → State → Res} {level l : Level} {max : Nat} {cont : WaitCont} {s : State}
    (hm : max ≠ 0) (hl : l = level) :
    waitWith k level max cont l s = k .ok { s with wBase := s.now, cd := s.cfg.tpb } := by
  simp [waitWith, hm, hl, resetPeriodTimer, nowOf]

theorem waitWith_of_opens {k : WaitResult → State → Res} {level l : Level} {max : Nat} {cont : WaitCont} {s : State}
    (hm : max ≠ 0) (hl : l ≠ level) :
    waitWith k level max cont l s =
      .next { s with wBase := s.now, cd := s.cfg.tpb, phase := .wait, wLevel := level, wMax := max, wCont := cont } := by
  simp [waitWith, hm, hl, resetPeriodTimer, nowOf]

/-- The three ways a poll goes (R114). -/
theorem waitPoll_of_bound {l : Level} {s : State} (h : s.wMax ≤ elapsed s) :
    waitPoll l s = andThen (continueAt s.wCont l .fail { s with cd := s.cfg.tpb, phase := .idle }) epilogue := if_pos h

theorem waitPoll_of_level {l : Level} {s : State} (h : elapsed s < s.wMax) (hl : l = s.wLevel) :
    waitPoll l s = andThen (continueAt s.wCont l .ok { s with cd := s.cfg.tpb, phase := .idle }) epilogue := by
  rw [waitPoll, if_neg (Nat.not_le.2 h), if_pos hl]; rfl

theorem waitPoll_of_stays {l : Level} {s : State} (h : elapsed s < s.wMax) (hl : l ≠ s.wLevel) :
    waitPoll l s = .next { s with cd := s.cfg.tpb } := by
  rw [waitPoll, if_neg (Nat.not_le.2 h), if_neg hl]; rfl

/-! ## TICK -/

/-- The ways a tick goes (R101). -/
theorem tick_of_wait {s : State} (l : Level) (h : s.phase = .wait) : tick l s = waitPoll l (advanceNow s) := by
  simp [tick, h]

theorem tick_of_fires {s : State} (l : Level) (h : s.phase = .idle) (hc : s.cd = 1) :
    tick l s = callback l { advanceNow s with cd := s.cfg.tpb } := by simp [tick, h, hc]

theorem tick_of_counts {s : State} (l : Level) (h : s.phase = .idle) (hc : 2 ≤ s.cd) :
    tick l s = .next { advanceNow s with cd := s.cd - 1 } := by
  obtain ⟨n, hn⟩ : ∃ n, s.cd = n + 2 := ⟨s.cd - 2, by omega⟩
  simp [tick, h, hn]

/-- All a tick can do when it answers (R101). -/
theorem tick_cases {s t : State} {l : Level} (h : tick l s = .next t) :
    (s.phase = .wait ∧ waitPoll l (advanceNow s) = .next t) ∨
    (s.phase = .idle ∧ s.cd = 1 ∧ callback l { advanceNow s with cd := s.cfg.tpb } = .next t) ∨
    (s.phase = .idle ∧ 2 ≤ s.cd ∧ t = { advanceNow s with cd := s.cd - 1 }) := by
  cases hp : s.phase with
  | wait => exact .inl ⟨rfl, by rwa [tick_of_wait l hp] at h⟩
  | idle =>
    match hc : s.cd with
    | 0 => simp [tick, hp, hc] at h
    | 1 => exact .inr (.inl ⟨rfl, rfl, by rwa [tick_of_fires l hp hc] at h⟩)
    | n + 2 =>
      rw [tick_of_counts l hp (by omega)] at h
      exact .inr (.inr ⟨rfl, by omega, by cases h; simp [hc]⟩)

/-! ## ReadData and DetectBreak -/

/-- What RD_ENTRY makes of the state before its wait (R130). -/
def entered (f : FrameBuffer) (s : State) : State :=
  setSlot s.head { f with count := 0 } { resetCounters s with rxState := .readData }

theorem enterReadData_of_some {s : State} {f : FrameBuffer} (l : Level) (h : s.slots[s.head]? = some f) :
    enterReadData l s = waitWith rdAlign .low s.cfg.tStart .startLow l (entered f s) := by
  simp [enterReadData, withSlot_of_some h, entered]

/-- All RD_ENTRY can do when it answers: open the start-bit wait, or align at once (R130, R131). -/
theorem enterReadData_cases {s t : State} {l : Level} (h : enterReadData l s = .next t) :
    ∃ f, s.slots[s.head]? = some f ∧
      ((s.cfg.tStart ≠ 0 ∧ l = .high ∧
          t = { entered f s with
            wBase := s.now, cd := s.cfg.tpb, phase := .wait, wLevel := .low, wMax := s.cfg.tStart, wCont := .startLow }) ∨
        ((s.cfg.tStart = 0 ∨ l = .low) ∧ t = { entered f s with wBase := s.now, cd := s.cfg.kMid })) := by
  obtain ⟨f, hf, e⟩ := withSlot_eq_next.1 h
  refine ⟨f, hf, ?_⟩
  change waitWith rdAlign .low s.cfg.tStart .startLow l (entered f s) = .next t at e
  by_cases hm : s.cfg.tStart = 0
  · rw [hm, waitWith_of_zero] at e
    exact .inr ⟨.inl hm, by cases e; rfl⟩
  · cases l with
    | low => rw [waitWith_of_level hm rfl] at e; exact .inr ⟨.inr rfl, by cases e; rfl⟩
    | high => rw [waitWith_of_opens hm (by decide)] at e; exact .inl ⟨hm, rfl, by cases e; rfl⟩

theorem appendByte_of_room {s : State} {f : FrameBuffer} (b : Byte) (h : s.slots[s.head]? = some f)
    (hr : f.count < f.bytes.length) :
    appendByte b s = .next (setSlot s.head { count := f.count + 1, bytes := f.bytes.set f.count b } s) := by
  simp [appendByte, withSlot_of_some h, hr]

theorem appendByte_eq_next {s t : State} {b : Byte} (h : appendByte b s = .next t) :
    ∃ f, s.slots[s.head]? = some f ∧ f.count < f.bytes.length ∧
      t = setSlot s.head { count := f.count + 1, bytes := f.bytes.set f.count b } s := by
  obtain ⟨f, hf, e⟩ := withSlot_eq_next.1 h
  split at e
  next hr => exact ⟨f, hf, hr, by cases e; rfl⟩
  next => cases e

/-- All RD_IFS_RESOLVE can do when it answers (R135). -/
theorem rdIfsResolve_cases {s t : State} {r : WaitResult} (h : rdIfsResolve r s = .next t) :
    (r = .fail ∧ s.bytesRead < s.cfg.fmin ∧ t = failFrame .frameShort s) ∨
    (r = .fail ∧ s.cfg.fmin ≤ s.bytesRead ∧ t = enterDetectBreak (qCommit s)) ∨
    (∃ f, r = .ok ∧ s.slots[s.head]? = some f ∧ f.count = s.cfg.fmax ∧ t = failFrame .frameLong s) ∨
    (∃ f, r = .ok ∧ s.slots[s.head]? = some f ∧ f.count ≠ s.cfg.fmax ∧ t = scheduleNextIn s.cfg.kMid s) := by
  cases r with
  | fail =>
    simp only [rdIfsResolve] at h
    split at h
    next hc => exact .inl ⟨rfl, hc, by cases h; rfl⟩
    next hc => exact .inr (.inl ⟨rfl, Nat.le_of_not_lt hc, by cases h; rfl⟩)
  | ok =>
    obtain ⟨f, hf, e⟩ := withSlot_eq_next.1 h
    split at e
    next hc => exact .inr (.inr (.inl ⟨f, rfl, hf, hc, by cases e; rfl⟩))
    next hc => exact .inr (.inr (.inr ⟨f, rfl, hf, hc, by cases e; rfl⟩))

/-- WAIT_HIGH at its one call site is the wait DB_SAMPLE starts (R113). -/
theorem waitHigh_brkHigh (max : Nat) (l : Level) (s : State) :
    waitHigh max .brkHigh l s = waitWith (dbBreakEnd l) .high max .brkHigh l s := rfl

/-- WAIT_LOW at its first call site is the wait RD_ENTRY starts (R112). -/
theorem waitLow_startLow (max : Nat) (l : Level) (s : State) :
    waitLow max .startLow l s = waitWith rdAlign .low max .startLow l s := rfl

/-- WAIT_LOW at its second call site is the wait RD_STOP_SAMPLE starts (R112). -/
theorem waitLow_ifsLow (max : Nat) (l : Level) (s : State) :
    waitLow max .ifsLow l s = waitWith rdIfsResolve .low max .ifsLow l s := rfl

/-! ## The step -/

/-- All a step can do when it answers (R12). -/
theorem step_cases {s t : State} (h : step s = .next t) :
    (s.pending = [] ∧ t = s) ∨
    (∃ w rest i, s.pending = .port w :: rest ∧ decodePort s.cfg w = .ok i ∧ exec i { s with pending := rest } = .next t) ∨
    (∃ w ops rest i, s.pending = .internal w ops :: rest ∧ decodeInternal w = .ok i ∧
      exec i { s with pending := rest, uop := ops } = .next t) := by
  simp only [step, fetch] at h
  match hp : s.pending with
  | [] => simp only [hp] at h; exact .inl ⟨rfl, by cases h; rfl⟩
  | .port w :: rest =>
    simp only [hp] at h
    cases hd : decodePort s.cfg w with
    | ok i => exact .inr (.inl ⟨w, rest, i, rfl, hd, by simpa [hd] using h⟩)
    | error r => simp [hd] at h
  | .internal w ops :: rest =>
    simp only [hp] at h
    cases hd : decodeInternal w with
    | ok i => exact .inr (.inr ⟨w, ops, rest, i, rfl, hd, by simpa [hd] using h⟩)
    | error r => simp [hd] at h

end Sys2Proof.Machine
end

