-- ==== Sys2Proof/Laws/Exec.lean ====
section
/-! SUPPORT. What exec does on a well-formed configuration, one lemma per constructor of Instr: the action it performs,
on the state whose result is `nothing`. -/

namespace Sys2Proof.Machine

variable {s t : State}

theorem exec_init (h : s.cfg.WF) : exec .init s = .next (initCore (returning .nothing s)) := if_pos h
theorem exec_tick (h : s.cfg.WF) (l : Level) : exec (.tick l) s = tick l (returning .nothing s) := if_pos h
theorem exec_readNextFrame (h : s.cfg.WF) :
    exec .readNextFrame s = .next (readNextFrame (returning .nothing s)) := if_pos h
theorem exec_hasErrors (h : s.cfg.WF) : exec .hasErrors s = .next (hasErrors (returning .nothing s)) := if_pos h
theorem exec_clearErrors (h : s.cfg.WF) : exec .clearErrors s = .next (clearErr (returning .nothing s)) := if_pos h
theorem exec_takeErrors (h : s.cfg.WF) :
    exec .takeErrors s =
      if s.cfg.optTakeErrors then .next (takeErrors (returning .nothing s)) else .refused .optionAbsent := if_pos h
theorem exec_callback (h : s.cfg.WF) : exec .callback s = callback s.uop.line (returning .nothing s) := if_pos h
theorem exec_dbSample (h : s.cfg.WF) : exec .dbSample s = dbSample s.uop.line (returning .nothing s) := if_pos h
theorem exec_rdEntry (h : s.cfg.WF) : exec .rdEntry s = enterReadData s.uop.line (returning .nothing s) := if_pos h
theorem exec_rdAlign (h : s.cfg.WF) : exec .rdAlign s = rdAlign s.uop.res (returning .nothing s) := if_pos h
theorem exec_rdStartSample (h : s.cfg.WF) :
    exec .rdStartSample s = rdStartSample s.uop.line (returning .nothing s) := if_pos h
theorem exec_rdDataSample (h : s.cfg.WF) :
    exec .rdDataSample s = .next (rdDataSample s.uop.line (returning .nothing s)) := if_pos h
theorem exec_rdStopSample (h : s.cfg.WF) :
    exec .rdStopSample s = rdStopSample s.uop.line (returning .nothing s) := if_pos h
theorem exec_rdIfsResolve (h : s.cfg.WF) :
    exec .rdIfsResolve s = rdIfsResolve s.uop.res (returning .nothing s) := if_pos h
theorem exec_dbEntry (h : s.cfg.WF) : exec .dbEntry s = .next (enterDetectBreak (returning .nothing s)) := if_pos h
theorem exec_dbBreakEnd (h : s.cfg.WF) :
    exec .dbBreakEnd s = dbBreakEnd s.uop.line s.uop.res (returning .nothing s) := if_pos h
theorem exec_qCommit (h : s.cfg.WF) : exec .qCommit s = .next (qCommit (returning .nothing s)) := if_pos h
theorem exec_handoff (h : s.cfg.WF) : exec .handoff s = handoff (returning .nothing s) := if_pos h
theorem exec_waitLow (h : s.cfg.WF) :
    exec .waitLow s =
      withOperand (maxOperand s) fun m => waitLow m s.uop.cont s.uop.line (returning .nothing s) := if_pos h
theorem exec_waitHigh (h : s.cfg.WF) :
    exec .waitHigh s =
      withOperand (maxOperand s) fun m => waitHigh m s.uop.cont s.uop.line (returning .nothing s) := if_pos h
theorem exec_waitPoll (h : s.cfg.WF) : exec .waitPoll s = waitPoll s.uop.line (returning .nothing s) := if_pos h
theorem exec_tsNow (h : s.cfg.WF) :
    exec .tsNow s = .next (returning (.ticks s.now) (returning .nothing s)) := if_pos h
theorem exec_tsResetPeriod (h : s.cfg.WF) :
    exec .tsResetPeriod s = .next (resetPeriodTimer (returning .nothing s)) := if_pos h
theorem exec_tsScheduleNext (h : s.cfg.WF) :
    exec .tsScheduleNext s =
      withOperand (offsetOperand s) fun k => .next (scheduleNextIn k (returning .nothing s)) := if_pos h
theorem exec_raiseFrameError (h : s.cfg.WF) (c : Cause) :
    exec (.raiseFrameError c) s = .next (raiseFrameError c (returning .nothing s)) := if_pos h

/-- An operation answers only on a well-formed configuration (R9). -/
theorem wf_of_exec_next {i : Instr} (h : exec i s = .next t) : s.cfg.WF := by
  cases i <;> simp only [exec, execInit, execTick, execReadNextFrame, execHasErrors, execClearErrors,
    execTakeErrors, execCallback, execDbSample, execRdEntry,
    execRdAlign, execRdStartSample, execRdDataSample, execRdStopSample, execRdIfsResolve, execDbEntry,
    execDbBreakEnd, execQCommit, execHandoff, execWaitLow, execWaitHigh, execWaitPoll, execTsNow,
    execTsResetPeriod, execTsScheduleNext, execRaiseFrameError] at h <;> exact (perform_eq_next.1 h).1

end Sys2Proof.Machine
end

