-- ==== Sys2Proof/Laws/PerInstr.lean ====
section
/-! SUPPORT. Statements per instruction, about the instruction as syntax: the class its word shows. -/

namespace Sys2Proof.Laws.WordClass

/-- The word of an operation shows its class: bit 7 is clear exactly on the port operations (R75, R79), whose bits 3 to
1 are 000 (R77). -/
def Statement (i : Instr) : Prop :=
  (encode i)[7] = !i.isPort ∧ (i.isPort = true → (encode i).extractLsb' 1 3 = 0)

theorem init : Statement .init := ⟨by decide, by decide⟩
theorem tick (l : Level) : Statement (.tick l) := by cases l <;> exact ⟨by decide, by decide⟩
theorem readNextFrame : Statement .readNextFrame := ⟨by decide, by decide⟩
theorem hasErrors : Statement .hasErrors := ⟨by decide, by decide⟩
theorem clearErrors : Statement .clearErrors := ⟨by decide, by decide⟩
theorem takeErrors : Statement .takeErrors := ⟨by decide, by decide⟩
theorem callback : Statement .callback := ⟨by decide, by decide⟩
theorem dbSample : Statement .dbSample := ⟨by decide, by decide⟩
theorem rdEntry : Statement .rdEntry := ⟨by decide, by decide⟩
theorem rdAlign : Statement .rdAlign := ⟨by decide, by decide⟩
theorem rdStartSample : Statement .rdStartSample := ⟨by decide, by decide⟩
theorem rdDataSample : Statement .rdDataSample := ⟨by decide, by decide⟩
theorem rdStopSample : Statement .rdStopSample := ⟨by decide, by decide⟩
theorem rdIfsResolve : Statement .rdIfsResolve := ⟨by decide, by decide⟩
theorem dbEntry : Statement .dbEntry := ⟨by decide, by decide⟩
theorem dbBreakEnd : Statement .dbBreakEnd := ⟨by decide, by decide⟩
theorem qCommit : Statement .qCommit := ⟨by decide, by decide⟩
theorem handoff : Statement .handoff := ⟨by decide, by decide⟩
theorem waitLow : Statement .waitLow := ⟨by decide, by decide⟩
theorem waitHigh : Statement .waitHigh := ⟨by decide, by decide⟩
theorem waitPoll : Statement .waitPoll := ⟨by decide, by decide⟩
theorem tsNow : Statement .tsNow := ⟨by decide, by decide⟩
theorem tsResetPeriod : Statement .tsResetPeriod := ⟨by decide, by decide⟩
theorem tsScheduleNext : Statement .tsScheduleNext := ⟨by decide, by decide⟩
theorem raiseFrameError (c : Cause) : Statement (.raiseFrameError c) := by cases c <;> exact ⟨by decide, by decide⟩

end Sys2Proof.Laws.WordClass
end

