-- ==== Sys2Proof/Laws/Producer.lean ====
section
/-! SUPPORT. What the producer can do, said once: every action of it is a chain of the writes `Writes` lists, so a claim
about all of them needs one case per kind of write. -/

namespace Sys2Proof.Machine

/-- One write of the producer (R51): its own registers, the head slot's count or next byte, an error, a commit, a
handoff. -/
inductive Writes (s : State) : State → Prop where
  /-- The Receiver State Machine's and the sequencer's registers, which only the producer sees (R21, R22). -/
  | own (t : State) (h : t = { s with
      rxState := t.rxState, lowCnt := t.lowCnt, bytesRead := t.bytesRead, bitCnt := t.bitCnt, acc := t.acc,
      mask := t.mask, cd := t.cd, phase := t.phase, wLevel := t.wLevel, wBase := t.wBase, wMax := t.wMax,
      wCont := t.wCont }) : Writes s t
  /-- RD_ENTRY clears the head slot's count (R130). -/
  | clearCount (f : FrameBuffer) (h : s.slots[s.head]? = some f) : Writes s (setSlot s.head { f with count := 0 } s)
  /-- RD_STOP_SAMPLE appends a byte to the head slot (R134). -/
  | append (f : FrameBuffer) (b : Byte) (h : s.slots[s.head]? = some f) (hr : f.count < f.bytes.length) :
      Writes s (setSlot s.head { count := f.count + 1, bytes := f.bytes.set f.count b } s)
  /-- An error is raised (R172). -/
  | raise (c : Cause) : Writes s (raiseFrameError c s)
  /-- A commit (R150). -/
  | commit : Writes s (qCommit s)
  /-- A handoff that moves a frame (R152). -/
  | move (f : FrameBuffer) (hm : s.mbFlag = false) (hq : s.head ≠ s.tail) (h : s.slots[s.tail]? = some f) :
      Writes s { s with mbFrame := f, tail := nextIndex s.cfg s.tail, mbFlag := true }

/-- A chain of the producer's writes. -/
abbrev Produces : State → State → Prop := Relation.ReflTransGen Writes

theorem Produces.step {s t u : State} (h : Writes s t) (k : Produces t u) : Produces s u := .head h k

theorem produces_failFrame (c : Cause) (s : State) : Produces s (failFrame c s) :=
  .step (.raise c) (.single (.own _ rfl))

theorem produces_handoff {s t : State} (h : handoff s = .next t) : Produces s t := by
  rcases handoff_cases h with ⟨-, rfl⟩ | ⟨f, hm, hq, hf, rfl⟩
  · exact .refl
  · exact .single (.move f hm hq hf)

theorem produces_epilogue {s t : State} (h : epilogue s = .next t) : Produces s t := by
  cases hp : s.phase with
  | idle => rw [epilogue_of_idle hp] at h; exact produces_handoff h
  | wait => rw [epilogue_of_wait hp] at h; cases h; exact .refl

theorem produces_waitWith {k : WaitResult → State → Res} (hk : ∀ r s t, k r s = .next t → Produces s t)
    {level l : Level} {max : Nat} {cont : WaitCont} {s t : State} (h : waitWith k level max cont l s = .next t) :
    Produces s t := by
  by_cases hm : max = 0
  · subst hm; rw [waitWith_of_zero] at h; exact .step (.own _ rfl) (hk _ _ _ h)
  · by_cases hl : l = level
    · rw [waitWith_of_level hm hl] at h; exact .step (.own _ rfl) (hk _ _ _ h)
    · rw [waitWith_of_opens hm hl] at h; cases h; exact .single (.own _ rfl)

theorem produces_rdAlign {r : WaitResult} {s t : State} (h : rdAlign r s = .next t) : Produces s t := by
  cases h; exact .single (.own _ rfl)

theorem produces_enterReadData {l : Level} {s t : State} (h : enterReadData l s = .next t) : Produces s t := by
  obtain ⟨f, hf, e⟩ := withSlot_eq_next.1 h
  exact .step (.own { resetCounters s with rxState := .readData } rfl)
    (.step (.clearCount f hf) (produces_waitWith (fun _ _ _ => produces_rdAlign) e))

theorem produces_rdIfsResolve {r : WaitResult} {s t : State} (h : rdIfsResolve r s = .next t) : Produces s t := by
  rcases rdIfsResolve_cases h with ⟨-, -, rfl⟩ | ⟨-, -, rfl⟩ | ⟨f, -, -, -, rfl⟩ | ⟨f, -, -, -, rfl⟩
  · exact produces_failFrame ..
  · exact .step .commit (.single (.own _ rfl))
  · exact produces_failFrame ..
  · exact .single (.own _ rfl)

theorem produces_continueAt {c : WaitCont} {l : Level} {r : WaitResult} {s t : State}
    (h : continueAt c l r s = .next t) : Produces s t := by
  cases c with
  | brkHigh => exact produces_enterReadData h
  | startLow => exact produces_rdAlign (r := r) h
  | ifsLow => exact produces_rdIfsResolve h

theorem produces_rdStartSample {l : Level} {s t : State} (h : rdStartSample l s = .next t) : Produces s t := by
  cases l with
  | high => cases h; exact produces_failFrame ..
  | low => cases h; exact .single (.own _ rfl)

theorem produces_rdStopSample {l : Level} {s t : State} (h : rdStopSample l s = .next t) : Produces s t := by
  cases l with
  | low => cases h; exact produces_failFrame ..
  | high =>
    obtain ⟨u, hu, e⟩ := andThen_eq_next.1 h
    obtain ⟨f, hf, hr, rfl⟩ := appendByte_eq_next hu
    exact .step (.append f s.acc hf hr)
      (.step (.own _ rfl) (produces_waitWith (fun _ _ _ => produces_rdIfsResolve) e))

theorem produces_dbSample {l : Level} {s t : State} (h : dbSample l s = .next t) : Produces s t := by
  cases l with
  | high => cases h; exact .single (.own _ rfl)
  | low =>
    simp only [dbSample] at h
    split at h
    · exact .step (.own { s with lowCnt := s.lowCnt + 1 } rfl)
        (produces_waitWith (fun _ _ _ => produces_enterReadData) h)
    · cases h; exact .single (.own _ rfl)

theorem produces_sample {l : Level} {s t : State} (h : sample l s = .next t) : Produces s t := by
  unfold sample at h
  split at h
  · exact produces_dbSample h
  · split at h
    · exact produces_rdStartSample h
    · split at h
      · cases h; exact .single (.own _ rfl)
      · exact produces_rdStopSample h

theorem produces_callback {l : Level} {s t : State} (h : callback l s = .next t) : Produces s t := by
  obtain ⟨u, hu, e⟩ := andThen_eq_next.1 h
  exact (produces_sample hu).trans (produces_epilogue e)

theorem produces_waitPoll {l : Level} {s t : State} (h : waitPoll l s = .next t) : Produces s t := by
  have ends : ∀ r, endWait l r (resetPeriodTimer s) = .next t → Produces s t := fun r h => by
    obtain ⟨u, hu, e⟩ := andThen_eq_next.1 h
    exact .step (.own _ rfl) ((produces_continueAt hu).trans (produces_epilogue e))
  unfold waitPoll at h
  split at h
  · exact ends _ h
  · split at h
    · exact ends _ h
    · cases h; exact .single (.own _ rfl)

/-- A TICK is the counter's advance and then a chain of the producer's writes (R178). -/
theorem produces_tick {l : Level} {s t : State} (h : tick l s = .next t) : Produces (advanceNow s) t := by
  rcases tick_cases h with ⟨-, e⟩ | ⟨-, -, e⟩ | ⟨-, -, rfl⟩
  · exact produces_waitPoll e
  · exact .step (.own { advanceNow s with cd := s.cfg.tpb } rfl) (produces_callback e)
  · exact .single (.own _ rfl)

/-- The operations whose meaning is an action of the producer, without the counter's advance. -/
def isAction : Instr → Bool
  | .init | .tick _ | .readNextFrame | .hasErrors | .clearErrors | .takeErrors | .tsNow => false
  | .callback | .dbSample | .rdEntry | .rdAlign | .rdStartSample | .rdDataSample | .rdStopSample | .rdIfsResolve
  | .dbEntry | .dbBreakEnd | .qCommit | .handoff | .waitLow | .waitHigh | .waitPoll | .tsResetPeriod
  | .tsScheduleNext | .raiseFrameError _ => true

/-- Every action of the producer is a chain of its writes, on the state whose result is `nothing`. -/
theorem produces_exec {i : Instr} {s t : State} (hi : isAction i = true) (h : exec i s = .next t) :
    Produces (returning .nothing s) t := by
  have hw := wf_of_exec_next h
  cases i with
  | init => cases hi
  | tick l => cases hi
  | readNextFrame => cases hi
  | hasErrors => cases hi
  | clearErrors => cases hi
  | takeErrors => cases hi
  | tsNow => cases hi
  | callback => rw [exec_callback hw] at h; exact produces_callback h
  | dbSample => rw [exec_dbSample hw] at h; exact produces_dbSample h
  | rdEntry => rw [exec_rdEntry hw] at h; exact produces_enterReadData h
  | rdAlign => rw [exec_rdAlign hw] at h; exact produces_rdAlign h
  | rdStartSample => rw [exec_rdStartSample hw] at h; exact produces_rdStartSample h
  | rdDataSample => rw [exec_rdDataSample hw] at h; cases h; exact .single (.own _ rfl)
  | rdStopSample => rw [exec_rdStopSample hw] at h; exact produces_rdStopSample h
  | rdIfsResolve => rw [exec_rdIfsResolve hw] at h; exact produces_rdIfsResolve h
  | dbEntry => rw [exec_dbEntry hw] at h; cases h; exact .single (.own _ rfl)
  | dbBreakEnd => rw [exec_dbBreakEnd hw] at h; exact produces_enterReadData h
  | qCommit => rw [exec_qCommit hw] at h; cases h; exact .single .commit
  | handoff => rw [exec_handoff hw] at h; exact produces_handoff h
  | waitLow =>
    rw [exec_waitLow hw] at h
    obtain ⟨m, -, e⟩ := withOperand_eq_next.1 h
    exact produces_waitWith (fun _ _ _ => produces_continueAt) e
  | waitHigh =>
    rw [exec_waitHigh hw] at h
    obtain ⟨m, -, e⟩ := withOperand_eq_next.1 h
    exact produces_waitWith (fun _ _ _ => produces_continueAt) e
  | waitPoll => rw [exec_waitPoll hw] at h; exact produces_waitPoll h
  | tsResetPeriod => rw [exec_tsResetPeriod hw] at h; cases h; exact .single (.own _ rfl)
  | tsScheduleNext =>
    rw [exec_tsScheduleNext hw] at h
    obtain ⟨k, -, e⟩ := withOperand_eq_next.1 h
    cases e; exact .single (.own _ rfl)
  | raiseFrameError c => rw [exec_raiseFrameError hw] at h; cases h; exact .single (.raise c)

end Sys2Proof.Machine
end

