-- ==== Sys2Proof/Tests/Slice0.lean ====
section
/-! SUPPORT. The tests: the well-formedness smoke test, the decodings, single steps with results from the spec's
examples and vectors, and a witness for the hypotheses of every statement. -/

namespace Sys2Proof.Tests

open Sys2Proof.Machine

/-! ## Helpers -/

/-- An operation answers a next state that passes `p`. -/
def gives (r : Res) (p : State → Bool) : Bool :=
  match r with
  | .next t => p t
  | .fault _ => false
  | .refused _ => false

/-- An operation is refused with `x`. -/
def refuses (r : Res) (x : Refusal) : Bool :=
  match r with
  | .refused y => decide (y = x)
  | .next _ => false
  | .fault _ => false

/-- A decoding that answers `i`. -/
def reads (r : Except Reject Instr) (i : Instr) : Bool :=
  match r with
  | .ok j => decide (j = i)
  | .error _ => false

/-- A decoding that rejects with `x`. -/
def rejects (r : Except Reject Instr) (x : Reject) : Bool :=
  match r with
  | .ok _ => false
  | .error y => decide (y = x)

/-- The reset state, whose configuration has TPB = 16, as the spec's vectors (95_test_vectors.md section 0). -/
def s0 : State := State.reset

/-- The reset configuration with TAKE_ERRORS. -/
def withTake : State := { s0 with cfg := { Config.default with optTakeErrors := true } }

/-- `s0` in ReadData, `n` bytes into the frame of slot 0. -/
def reading (n : Nat) : State :=
  { s0 with
    rxState := .readData, bytesRead := n
    slots := s0.slots.set 0 { FrameBuffer.empty 11 with count := n } }

/-- Operands of an internal action. -/
def operands (l : Level) (res : WaitResult) (max : Nat) (cont : WaitCont) (k : Nat) : MicroOperands :=
  { line := l, res := res, max := max, cont := cont, k := k }

/-- `s` with the line level of the next internal action. -/
def line (l : Level) (s : State) : State := { s with uop := { s.uop with line := l } }

/-- `s` with the wait outcome of the next internal action. -/
def outcome (r : WaitResult) (s : State) : State := { s with uop := { s.uop with res := r } }

/-- The frame of the end-to-end example (S8). -/
def e2eFrame : FrameBuffer := { count := 4, bytes := [0x55, 0x12, 0xAA, 0x37, 0, 0, 0, 0, 0, 0, 0] }

/-- The break's wait of V-E2E, open since tick 192. -/
def breakWait : State :=
  { s0 with
    lowCnt := 10, phase := .wait, wLevel := .high, wBase := 192, wMax := 255, wCont := .brkHigh, now := 192 }

/-- The start-bit wait of V-E2E, open since tick 249. -/
def startWait : State :=
  { s0 with
    rxState := .readData, phase := .wait, wLevel := .low, wBase := 249, wMax := 255, wCont := .startLow, now := 249 }

/-- The inter-byte wait after `n` bytes, open since tick 899 (RD-7, RD-3). -/
def ifsWait (n now : Nat) : State :=
  { reading n with phase := .wait, wLevel := .low, wBase := 899, wMax := 64, wCont := .ifsLow, now := now }

/-- Q-2: the queue is full, head at 7 and tail at 0; the frames' counts tell the slots apart. -/
def fullQueue : State :=
  { s0 with
    head := 7, tail := 0
    slots := (List.range 8).map fun i => { FrameBuffer.empty 11 with count := 4 + i % 8 } }

/-! ## Well-formedness: one ill-formed term for each check (R7, R9, R75) -/

theorem test_wf_default : Config.default.WF := by decide
theorem test_wf_baud : ¬{ Config.default with baud := 0 }.WF := by decide
theorem test_wf_tick_hz : ¬{ Config.default with tickHz := 9599 }.WF := by decide
theorem test_wf_tpb : ¬({ baud := 2, tickHz := 1, kMid := 1 } : Config).WF := by decide
theorem test_wf_qcap : ¬{ Config.default with qcap := 1 }.WF := by decide
theorem test_wf_fmax : ¬{ Config.default with fmax := 3 }.WF := by decide
theorem test_wf_fmin : ¬{ Config.default with fmin := 0 }.WF := by decide
theorem test_wf_brk_n : ¬{ Config.default with brkN := 0 }.WF := by decide
theorem test_wf_t_brk : ¬{ Config.default with tickW := 9, tBrk := 512 }.WF := by decide
theorem test_wf_t_start : ¬{ Config.default with tickW := 9, tStart := 512 }.WF := by decide
theorem test_wf_t_ifs : ¬{ Config.default with tickW := 9, ifsBits := 32 }.WF := by decide
theorem test_wf_k_mid : ¬{ Config.default with kMid := 0 }.WF := by decide
theorem test_wf_tick_w : ¬{ Config.default with tickW := 8, tBrk := 1, tStart := 1 }.WF := by decide
theorem test_wf_take_errors : Instr.takeErrors.WF Config.default = false := by decide
/-- R8 and 95_test_vectors.md section 0: TPB = 16, K_MID = 10, T_IFS = 64. -/
theorem test_computed_parameters :
    Config.default.tpb = 16 ∧ Config.default.kMid = 10 ∧ Config.default.tIfs = 64 := by decide

/-! ## Decoding: every constructor's word, bit by bit from the tables of R75 and R79 -/

theorem test_decode_init : reads (decode 0b00000000) .init := by decide
theorem test_decode_tick_low : reads (decode 0b00010000) (.tick .low) := by decide
theorem test_decode_tick_high : reads (decode 0b00010001) (.tick .high) := by decide
theorem test_decode_read_next_frame : reads (decode 0b00100000) .readNextFrame := by decide
theorem test_decode_has_errors : reads (decode 0b00110000) .hasErrors := by decide
theorem test_decode_clear_errors : reads (decode 0b01000000) .clearErrors := by decide
theorem test_decode_take_errors : reads (decode 0b01010000) .takeErrors := by decide
theorem test_decode_callback : reads (decode 0b10000000) .callback := by decide
theorem test_decode_db_sample : reads (decode 0b10000001) .dbSample := by decide
theorem test_decode_rd_entry : reads (decode 0b10000010) .rdEntry := by decide
theorem test_decode_rd_align : reads (decode 0b10000011) .rdAlign := by decide
theorem test_decode_rd_start_sample : reads (decode 0b10000100) .rdStartSample := by decide
theorem test_decode_rd_data_sample : reads (decode 0b10000101) .rdDataSample := by decide
theorem test_decode_rd_stop_sample : reads (decode 0b10000110) .rdStopSample := by decide
theorem test_decode_rd_ifs_resolve : reads (decode 0b10000111) .rdIfsResolve := by decide
theorem test_decode_db_entry : reads (decode 0b10001000) .dbEntry := by decide
theorem test_decode_db_break_end : reads (decode 0b10001001) .dbBreakEnd := by decide
theorem test_decode_q_commit : reads (decode 0b10001010) .qCommit := by decide
theorem test_decode_handoff : reads (decode 0b10001011) .handoff := by decide
theorem test_decode_wait_low : reads (decode 0b10001100) .waitLow := by decide
theorem test_decode_wait_high : reads (decode 0b10001101) .waitHigh := by decide
theorem test_decode_wait_poll : reads (decode 0b10001110) .waitPoll := by decide
theorem test_decode_ts_now : reads (decode 0b10001111) .tsNow := by decide
theorem test_decode_ts_reset_period : reads (decode 0b10010000) .tsResetPeriod := by decide
theorem test_decode_ts_schedule_next : reads (decode 0b10010001) .tsScheduleNext := by decide
/-- R171: the causes 1 to 5. -/
theorem test_decode_raise_frame_error :
    reads (decode 0b10100001) (.raiseFrameError .startFraming) ∧
    reads (decode 0b10100010) (.raiseFrameError .stopFraming) ∧
    reads (decode 0b10100011) (.raiseFrameError .frameShort) ∧
    reads (decode 0b10100100) (.raiseFrameError .frameLong) ∧
    reads (decode 0b10100101) (.raiseFrameError .overrun) := by decide
/-- 95_test_vectors.md, family 30: the refused words. -/
theorem test_reserved_operand_bit : ∀ w ∈ [0x01#8, 0x21#8, 0x31#8, 0x41#8],
    rejects (decodePort Config.default w) .operandBit := by decide
theorem test_reserved_must_be_zero : ∀ w ∈ [0x12#8, 0x1E#8, 0x02#8],
    rejects (decodePort Config.default w) .mustBeZero := by decide
theorem test_reserved_operation : ∀ w ∈ [0x60#8, 0x70#8, 0x71#8],
    rejects (decodePort Config.default w) .reservedOp := by decide
theorem test_reserved_internal : ∀ w ∈ [0x80#8, 0x8B#8, 0xA1#8, 0xFF#8],
    rejects (decodePort Config.default w) .internalOnPort := by decide
theorem test_reserved_option : rejects (decodePort Config.default 0x50) .optionAbsent := by decide
/-- R80: the unused codes. -/
theorem test_unused_codes : ∀ w ∈ [0xA0#8, 0xA6#8, 0xA7#8, 0x92#8, 0xFF#8],
    rejects (decodeInternal w) .unusedCode := by decide
/-- Both host functions on a word of the table, and on a number that is no word. -/
theorem test_table_word : decodeTableWord 8 0x8A = some .qCommit ∧ decodeTableWord 16 0x18A = none := by decide

/-! ## Steps -/

/-- R202, R200: power-on. -/
theorem test_reset : s0.cd = 16 ∧ s0.mask = 0x01 ∧ s0.slots.length = 8 := by decide
/-- P4: INIT, HAS_ERRORS => 0, and 0x50 refused. -/
theorem test_step_p4 :
    gives (step { s0 with pending := [.port 0x00, .port 0x30, .port 0x50] }) (fun t =>
      gives (step t) (fun u => decide (u.result = .bit false) && refuses (step u) (.reservedWord 0x50 .optionAbsent))) := by
  decide
/-- The host's step runs the word it places. -/
theorem test_step_placed_word :
    gives (step (s0.withFetchWord 8 0xA2)) (fun t => t.err && decide (t.trace = [.stopFraming])) ∧
    gives (step (s0.withFetchWord 8 0x50)) (fun t => decide (t.result = .bit false)) := by decide
/-- R83: the expansion of CHAR at TPB = 2. -/
theorem test_char_expansion :
    charOf { baud := 1, tickHz := 2 } 0x55 =
      [.tick .low, .tick .low, .tick .high, .tick .high, .tick .low, .tick .low, .tick .high, .tick .high, .tick .low,
        .tick .low, .tick .high, .tick .high, .tick .low, .tick .low, .tick .high, .tick .high, .tick .low, .tick .low,
        .tick .high, .tick .high] := by decide
/-- R200's example. -/
theorem test_init :
    gives (exec .init { breakWait with err := true, mbFlag := true, head := 5, tail := 2 }) fun t =>
      !t.err && !t.mbFlag && decide (t.head = 0 ∧ t.tail = 0 ∧ t.phase = .idle ∧ t.cd = 16 ∧ t.now = 192) := by decide
/-- R101's example. -/
theorem test_tick_fires :
    gives (exec (.tick .low) { s0 with cd := 1, lowCnt := 3 }) fun t =>
      decide (t = { s0 with lowCnt := 4, now := 1 }) := by decide
/-- R102's example: the counter wraps to 0. -/
theorem test_tick_wraps :
    gives (exec (.tick .high) { s0 with now := 0xFFFFFFFF }) fun t => decide (t.now = 0 ∧ t.cd = 15) := by decide
/-- R160's example. -/
theorem test_read_next_frame :
    gives (exec .readNextFrame { s0 with mbFlag := true, mbFrame := e2eFrame }) fun t =>
      decide (t.result = .frame 4 [0x55, 0x12, 0xAA, 0x37]) && !t.mbFlag := by decide
/-- C-5. -/
theorem test_read_no_frame : gives (exec .readNextFrame s0) fun t => decide (t = { s0 with result := .noFrame }) := by
  decide
/-- R161's example. -/
theorem test_has_errors :
    gives (exec .hasErrors { s0 with err := true }) fun t => decide (t.result = .bit true) && t.err := by decide
/-- R162's example. -/
theorem test_clear_errors : gives (exec .clearErrors { s0 with err := true }) fun t => !t.err := by decide
/-- R163's example, and P4 for a core without the option. -/
theorem test_take_errors :
    gives (exec .takeErrors { withTake with err := true }) (fun t => decide (t.result = .bit true) && !t.err) ∧
    refuses (exec .takeErrors s0) .optionAbsent := by decide
/-- R120's example. -/
theorem test_callback :
    gives (exec .callback (line .high { reading 1 with bitCnt := 3, mask := 0x04 })) fun t =>
      decide (t.acc = 0x04 ∧ t.bitCnt = 4) := by decide
/-- R122's example. -/
theorem test_db_sample :
    gives (exec .dbSample (line .low { s0 with lowCnt := 9, now := 192 })) fun t =>
      decide (t.lowCnt = 10 ∧ t.phase = .wait ∧ t.wLevel = .high ∧ t.wMax = 255 ∧ t.wBase = 192) := by decide
/-- DB-2: a high sample resets the count. -/
theorem test_db_sample_high : gives (exec .dbSample { s0 with lowCnt := 9 }) fun t => decide (t = s0) := by decide
/-- R130's example. -/
theorem test_rd_entry :
    gives (exec .rdEntry { s0 with head := 3, slots := s0.slots.set 3 { FrameBuffer.empty 11 with count := 7 } }) fun t =>
      decide (t.slots = s0.slots ∧ t.rxState = .readData ∧ t.phase = .wait ∧ t.wMax = 255 ∧ t.wCont = .startLow) := by
  decide
/-- R131's example. -/
theorem test_rd_align : gives (exec .rdAlign startWait) fun t => decide (t.cd = 10) := by decide
/-- R132's example, both samples. -/
theorem test_rd_start_sample :
    gives (exec .rdStartSample (line .low (reading 0))) (fun t => decide (t.bitCnt = 1 ∧ t.acc = 0 ∧ t.mask = 1)) ∧
    gives (exec .rdStartSample (line .high (reading 0))) (fun t =>
      t.err && decide (t.rxState = .detectBreak ∧ t.trace = [.startFraming])) := by decide
/-- R133's example. -/
theorem test_rd_data_sample :
    gives (exec .rdDataSample (line .high { reading 0 with acc := 0x05, mask := 0x08, bitCnt := 4 })) fun t =>
      decide (t.acc = 0x0D ∧ t.mask = 0x10 ∧ t.bitCnt = 5) := by decide
/-- R134's example. -/
theorem test_rd_stop_sample :
    gives (exec .rdStopSample (line .high { reading 0 with acc := 0x55, bitCnt := 9 })) fun t =>
      decide (t.slots[0]? = some { count := 1, bytes := [0x55, 0, 0, 0, 0, 0, 0, 0, 0, 0, 0] } ∧ t.bytesRead = 1 ∧
        t.bitCnt = 0 ∧ t.phase = .wait ∧ t.wMax = 64 ∧ t.wCont = .ifsLow) := by decide
/-- RD-2. -/
theorem test_rd_stop_sample_low :
    gives (exec .rdStopSample (line .low { reading 1 with bitCnt := 9 })) fun t =>
      t.err && decide (t.trace = [.stopFraming] ∧ t.rxState = .detectBreak ∧ headCount t = 1) := by decide
/-- RD-3 and the commit of R135's example. -/
theorem test_rd_ifs_resolve_fail :
    gives (exec .rdIfsResolve (outcome .fail (reading 3))) (fun t => t.err && decide (t.trace = [.frameShort])) ∧
    gives (exec .rdIfsResolve (outcome .fail (reading 4))) (fun t =>
      !t.err && decide (t.head = 1 ∧ t.tail = 0 ∧ t.rxState = .detectBreak)) := by decide
/-- RD-5 and the tenth continuation of RD-4. -/
theorem test_rd_ifs_resolve_ok :
    gives (exec .rdIfsResolve (outcome .ok (reading 11))) (fun t => t.err && decide (t.trace = [.frameLong])) ∧
    gives (exec .rdIfsResolve (outcome .ok (reading 10))) (fun t =>
      !t.err && decide (t.cd = 10 ∧ t.rxState = .readData)) := by decide
/-- R123's example. -/
theorem test_db_entry :
    gives (exec .dbEntry { reading 2 with bitCnt := 9 }) fun t =>
      decide (t.rxState = .detectBreak ∧ t.lowCnt = 0 ∧ t.bytesRead = 0 ∧ t.bitCnt = 0 ∧ headCount t = 2) := by decide
/-- R124's example, and DB-4 at tick 447: after a FAIL the line is still low and the entry's wait ends at once. -/
theorem test_db_break_end :
    gives (exec .dbBreakEnd (line .high { s0 with lowCnt := 10, now := 249 })) (fun t =>
      decide (t.rxState = .readData ∧ t.phase = .wait ∧ t.wBase = 249 ∧ t.wMax = 255)) ∧
    gives (exec .dbBreakEnd (outcome .fail (line .low { s0 with lowCnt := 10, now := 447 }))) (fun t =>
      decide (t.rxState = .readData ∧ t.phase = .idle ∧ t.cd = 10)) := by decide
/-- Q-2. -/
theorem test_q_commit_overrun :
    gives (exec .qCommit fullQueue) fun t =>
      t.err && decide (t.head = 0 ∧ t.tail = 1 ∧ t.trace = [.overrun] ∧ (queued t).map (·.count) = [5, 6, 7, 8, 9, 10, 11]) := by
  decide
/-- R152's example, and a full Mailbox. -/
theorem test_handoff :
    gives (exec .handoff { s0 with head := 2, slots := s0.slots.set 0 e2eFrame }) (fun t =>
      t.mbFlag && decide (t.mbFrame = e2eFrame ∧ t.tail = 1)) ∧
    gives (exec .handoff { s0 with head := 2, mbFlag := true }) (fun t => decide (t.tail = 0)) := by decide
/-- R112's example, and WT-2: at a low line it ends at once and takes no tick. -/
theorem test_wait_low :
    gives (exec .waitLow { reading 1 with now := 419, uop := operands .high .ok 64 .ifsLow 1 }) (fun t =>
      decide (t.phase = .wait ∧ t.wLevel = .low ∧ t.wBase = 419 ∧ t.wMax = 64)) ∧
    gives (exec .waitLow { reading 0 with now := 447, uop := operands .low .ok 255 .startLow 1 }) (fun t =>
      decide (t.phase = .idle ∧ t.cd = 10 ∧ t.now = 447)) := by decide
/-- R113's example, and the bound of the operand (R112). -/
theorem test_wait_high :
    gives (exec .waitHigh { s0 with now := 192, uop := operands .low .ok 255 .brkHigh 1 }) (fun t =>
      decide (t.phase = .wait ∧ t.wLevel = .high ∧ t.wBase = 192 ∧ t.wMax = 255)) ∧
    refuses (exec .waitHigh { s0 with uop := operands .low .ok (2 ^ 32) .brkHigh 1 }) .boundTooLarge := by decide
/-- R114's example, and WT-4: at the bound it ends FAIL although the line reads low. -/
theorem test_wait_poll :
    gives (exec .waitPoll (line .low { ifsWait 1 905 with cd := 3 })) (fun t =>
      decide (t.phase = .idle ∧ t.rxState = .readData ∧ t.cd = 10)) ∧
    gives (exec .waitPoll (line .low (ifsWait 4 963))) (fun t =>
      t.mbFlag && decide (t.phase = .idle ∧ t.rxState = .detectBreak ∧ t.head = 1 ∧ t.tail = 1 ∧ t.cd = 16)) := by decide
/-- TS-5: the elapsed ticks across the counter's wrap are 57. -/
theorem test_elapsed_wraps : elapsed { breakWait with wBase := 2 ^ 32 - 3, now := 54 } = 57 := by decide
/-- R102's example. -/
theorem test_ts_now : gives (exec .tsNow { s0 with now := 0xFFFFFFFF }) fun t => decide (t.result = .ticks 0xFFFFFFFF) := by
  decide
/-- R103's example. -/
theorem test_ts_reset_period : gives (exec .tsResetPeriod { s0 with cd := 3 }) fun t => decide (t.cd = 16) := by decide
/-- R104's example, and the offset it refuses. -/
theorem test_ts_schedule_next :
    gives (exec .tsScheduleNext { s0 with uop := operands .high .ok 0 .startLow 10 }) (fun t => decide (t.cd = 10)) ∧
    refuses (exec .tsScheduleNext { s0 with uop := operands .high .ok 0 .startLow 0 }) .zeroOffset := by decide
/-- R172's example. -/
theorem test_raise_frame_error :
    gives (exec (.raiseFrameError .stopFraming) s0) fun t =>
      t.err && decide (t = { s0 with err := true, trace := [.stopFraming] }) := by decide

/-! ## Witnesses: for every statement with hypotheses, concrete values that meet them together, one for each clause -/

/-- An operation that gives a state answers one. -/
theorem next_of_gives {r : Res} {p : State → Bool} (h : gives r p = true) : ∃ t, r = .next t ∧ p t = true := by
  cases r <;> simp_all [gives]

/-- `s0` with a frame in the Mailbox. -/
def mailed : State := { s0 with mbFlag := true, mbFrame := e2eFrame }

theorem test_witness_step_runs_port_command :
    { s0 with pending := [.port 0x11] }.pending = Request.port 0x11 :: [] ∧
      decodePort s0.cfg 0x11 = .ok (.tick .high) := ⟨rfl, rfl⟩

theorem test_witness_step_runs_internal_action :
    Instr.isPort .qCommit = false ∧ encode .qCommit = 0x8A := by decide

/-- One reserved word for each of the six ways. -/
theorem test_witness_reserved_word_is_refused_for_good :
    (0xFF#8)[7] = true ∧ (0x60#8).extractLsb' 4 3 = 6 ∧ (0x70#8).extractLsb' 4 3 = 7 ∧ (0x02#8).extractLsb' 1 3 ≠ 0 ∧
    ((0x01#8).extractLsb' 4 3 ≠ 1 ∧ (0x01#8)[0] = true) ∧ s0.cfg.optTakeErrors = false := by decide

theorem test_witness_nothing_pending_changes_nothing : s0.pending = [] := rfl

theorem test_witness_ill_formed_config_is_refused :
    ¬{ s0 with cfg := { Config.default with qcap := 1 } }.cfg.WF := by decide

theorem test_witness_pseudo_operations : ∀ i, AsmLine.idle 3 ≠ .op i := nofun

theorem test_witness_char_expansion : 159 < 10 * Config.default.tpb := by decide

/-- The one hypothesis of INIT, TS_NOW, TS_RESET_PERIOD, DB_ENTRY, RD_ALIGN, RD_DATA_SAMPLE, HAS_ERRORS, CLEAR_ERRORS
and RAISE_FRAME_ERROR. -/
theorem test_witness_wf : s0.cfg.WF := by decide

theorem test_witness_ts_schedule_next_sets_countdown :
    1 ≤ { s0 with uop := operands .high .ok 0 .startLow 1 }.uop.k ∧
    { s0 with uop := operands .high .ok 0 .startLow 0 }.uop.k = 0 := by decide

theorem test_witness_tick_follows_phase_and_countdown :
    (s0.cfg.WF ∧ { s0 with cd := 2 }.phase = .idle ∧ 2 ≤ { s0 with cd := 2 }.cd) ∧
    { s0 with cd := 1 }.cd = 1 ∧ (breakWait.cfg.WF ∧ breakWait.phase = .wait) := by decide

theorem test_witness_quiet_ticks_then_callback :
    s0.cfg.WF ∧ s0.phase = .idle ∧ [Level.high] ≠ [] ∧ [Level.high].length < s0.cd ∧
    [Level.high].length + 1 = { s0 with cd := 2 }.cd := by decide

/-- The bound is two ticks away, and one. -/
theorem test_witness_open_wait_outcome_law :
    (breakWait.cfg.WF ∧ breakWait.phase = .wait ∧ breakWait.wMax < 2 ^ breakWait.cfg.tickW ∧ [Level.low] ≠ [] ∧
      (∀ x ∈ [Level.low], x ≠ breakWait.wLevel) ∧ elapsed breakWait + 1 < breakWait.wMax ∧
      elapsed breakWait + 1 + 1 < breakWait.wMax) ∧
    (elapsed { breakWait with now := 445 } + 1 < breakWait.wMax ∧
      elapsed { breakWait with now := 445 } + 1 + 1 = breakWait.wMax) := by decide

/-- Each clause: a bound of 1 with the line off and at the level, 0, and one past the operand's range. -/
theorem test_witness_waits_start :
    (∀ l ∈ [Level.low, Level.high], { s0 with uop := operands l .ok 1 .ifsLow 1 }.uop.max ≠ 0 ∧
      { s0 with uop := operands l .ok 1 .ifsLow 1 }.uop.max < 2 ^ s0.cfg.tickW) ∧
    { s0 with uop := operands .low .ok 0 .ifsLow 1 }.uop.max = 0 ∧
    2 ^ s0.cfg.tickW ≤ { s0 with uop := operands .low .ok (2 ^ 32) .ifsLow 1 }.uop.max := by decide

/-- Short of the bound by one off and at the level, and at the bound. -/
theorem test_witness_wait_poll_stays_or_ends :
    (elapsed (ifsWait 1 962) < 64 ∧ (line .high (ifsWait 1 962)).uop.line ≠ (ifsWait 1 962).wLevel) ∧
    (line .low (ifsWait 1 962)).uop.line = (ifsWait 1 962).wLevel ∧
    (ifsWait 1 963).wMax ≤ elapsed (ifsWait 1 963) ∧
    ({ startWait with mbFlag := true, now := 504 }.wMax ≤ elapsed { startWait with mbFlag := true, now := 504 } ∧
      startWait.wCont = .startLow) := by decide

/-- Each clause, with `bit_cnt` at both ends of the data bits. -/
theorem test_witness_callback_dispatches_the_sample :
    s0.rxState = .detectBreak ∧ ((reading 0).rxState = .readData ∧ (reading 0).bitCnt = 0 ∧ (reading 0).cfg.WF) ∧
    (∀ n ∈ [1, 8], 1 ≤ { reading 0 with bitCnt := n }.bitCnt ∧ { reading 0 with bitCnt := n }.bitCnt ≤ 8 ∧
      HandoffIdle { reading 0 with bitCnt := n }) ∧ { reading 0 with bitCnt := 9 }.bitCnt = 9 := by decide

theorem test_witness_run_inv : RunInv s0 :=
  ⟨by decide, ⟨by decide, by decide, by decide, by decide, by decide⟩,
    ⟨by decide, by decide, by decide, by decide, by decide, by decide, by decide, by decide, by decide⟩,
    nofun, by decide, nofun, nofun, by decide, nofun, nofun⟩

theorem test_witness_run_inv_mailed : RunInv mailed :=
  ⟨by decide, ⟨by decide, by decide, by decide, by decide, by decide⟩,
    ⟨by decide, by decide, by decide, by decide, by decide, by decide, by decide, by decide, by decide⟩,
    nofun, by decide, nofun, nofun, by decide, by decide, nofun⟩

/-- `fullQueue` with a frame in the Mailbox. -/
def fullMailed : State := { fullQueue with mbFlag := true, mbFrame := e2eFrame }

theorem test_witness_run_inv_full : RunInv fullQueue ∧ RunInv fullMailed :=
  ⟨⟨by decide, ⟨by decide, by decide, by decide, by decide, by decide⟩,
    ⟨by decide, by decide, by decide, by decide, by decide, by decide, by decide, by decide, by decide⟩,
    nofun, by decide, nofun, nofun, by decide, nofun, nofun⟩,
  ⟨by decide, ⟨by decide, by decide, by decide, by decide, by decide⟩,
    ⟨by decide, by decide, by decide, by decide, by decide, by decide, by decide, by decide, by decide⟩,
    nofun, by decide, nofun, nofun, by decide, by decide, nofun⟩⟩

/-- A state of a run in each of the three waits. -/
theorem test_witness_run_inv_waiting : RunInv breakWait ∧ RunInv startWait ∧ RunInv (ifsWait 4 900) :=
  ⟨⟨by decide, ⟨by decide, by decide, by decide, by decide, by decide⟩,
    ⟨by decide, by decide, by decide, by decide, by decide, by decide, by decide, by decide, by decide⟩,
    by decide, by decide, nofun, nofun, by decide, nofun, nofun⟩,
  ⟨by decide, ⟨by decide, by decide, by decide, by decide, by decide⟩,
    ⟨by decide, by decide, by decide, by decide, by decide, by decide, by decide, by decide, by decide⟩,
    by decide, nofun, by decide, by decide, by decide, nofun, nofun⟩,
  ⟨by decide, ⟨by decide, by decide, by decide, by decide, by decide⟩,
    ⟨by decide, by decide, by decide, by decide, by decide, by decide, by decide, by decide, by decide⟩,
    by decide, nofun, by decide, by decide, by decide, nofun, nofun⟩⟩

/-- A callback, a poll, and a tick of each kind. -/
theorem test_witness_callback_completes_handed_over :
    (RunInv s0 ∧ s0.phase = .idle) ∧ (RunInv startWait ∧ startWait.phase = .wait) ∧
    (RunInv (ifsWait 4 900) ∧ ((ifsWait 4 900).phase = .wait ∨ (ifsWait 4 900).cd = 1)) :=
  ⟨⟨test_witness_run_inv, rfl⟩, ⟨test_witness_run_inv_waiting.2.1, rfl⟩, test_witness_run_inv_waiting.2.2, .inl rfl⟩

/-- Each clause, the count one short of BRK_N, and two short. -/
theorem test_witness_db_sample_counts_lows :
    (line .high s0).uop.line = .high ∧ (line .low s0).uop.line = .low ∧
    { s0 with lowCnt := 8 }.lowCnt + 1 ≠ s0.cfg.brkN ∧ { s0 with lowCnt := 9 }.lowCnt + 1 = s0.cfg.brkN ∧
    s0.cfg.tBrk ≠ 0 := by decide

theorem test_witness_rd_entry_starts_the_search :
    s0.slots[s0.head]? = some (FrameBuffer.empty 11) ∧ (s0.cfg.tStart ≠ 0 ∧ (line .high s0).uop.line = .high) ∧
    (line .low s0).uop.line = .low ∧
    ({ s0 with cfg := { Config.default with tStart := 0 } }.cfg.WF ∧
      { s0 with cfg := { Config.default with tStart := 0 } }.cfg.tStart = 0) := by decide

theorem test_witness_rd_start_sample_checks_start_bit :
    (line .high (reading 0)).uop.line = .high ∧ (line .low (reading 0)).uop.line = .low ∧ (reading 0).cfg.WF := by decide

/-- Room for the eleventh byte, and none needed for a low stop bit. -/
theorem test_witness_rd_stop_sample_appends_byte :
    (line .low (reading 0)).uop.line = .low ∧
    ((line .high (reading 10)).uop.line = .high ∧
      (reading 10).slots[(reading 10).head]? = some { FrameBuffer.empty 11 with count := 10 } ∧
      ({ FrameBuffer.empty 11 with count := 10 } : FrameBuffer).count < (FrameBuffer.empty 11).bytes.length ∧
      (reading 10).cfg.tIfs ≠ 0) := by decide

/-- Each clause at FMIN and FMAX. -/
theorem test_witness_rd_ifs_resolve_ends_or_continues :
    ((outcome .fail (reading 3)).uop.res = .fail ∧ (reading 3).bytesRead < s0.cfg.fmin) ∧
    s0.cfg.fmin ≤ (reading 4).bytesRead ∧
    ((outcome .ok (reading 11)).uop.res = .ok ∧ headCount (reading 11) = s0.cfg.fmax ∧
      (reading 11).head < (reading 11).slots.length) ∧
    (headCount (reading 10) ≠ s0.cfg.fmax ∧ (reading 10).head < (reading 10).slots.length) := by decide

theorem test_witness_data_bits_assemble_lsb_first :
    { reading 0 with bitCnt := 1 }.bitCnt = 1 ∧ (reading 0).acc = 0x00 ∧ (reading 0).mask = 0x01 ∧ 8 ≤ 8 := by decide

theorem test_witness_ideal_character_is_received :
    (reading 10).cfg.WF ∧ (reading 10).cfg.kMid + 1 ≤ (reading 10).cfg.tpb ∧ (reading 10).cfg.tIfs ≠ 0 ∧
    (reading 10).rxState = .readData ∧ (reading 10).phase = .idle ∧ (reading 10).bitCnt = 0 ∧
    { reading 10 with cd := 10 }.cd = (reading 10).cfg.kMid ∧ HandoffIdle (reading 10) ∧
    (reading 10).slots[(reading 10).head]? = some { FrameBuffer.empty 11 with count := 10 } ∧
    ({ FrameBuffer.empty 11 with count := 10 } : FrameBuffer).count < (FrameBuffer.empty 11).bytes.length := by decide

theorem test_witness_low_run_is_a_break :
    s0.cfg.WF ∧ s0.cfg.tBrk ≠ 0 ∧ s0.rxState = .detectBreak ∧ s0.phase = .idle ∧ s0.lowCnt = 0 ∧ 1 ≤ s0.cd ∧
    HandoffIdle s0 := by decide

/-- DB-2: nine bit periods low, the longest run that is no break. -/
theorem test_witness_short_low_run_is_no_break :
    s0.cfg.WF ∧ s0.rxState = .detectBreak ∧ s0.phase = .idle ∧ s0.lowCnt = 0 ∧ 1 ≤ s0.cd ∧ HandoffIdle s0 ∧
    144 ≤ (s0.cfg.brkN - 1) * s0.cfg.tpb := by decide

/-- The end-to-end frame of S8 with the longest break, the longest delimiter and the longest gap, for the four fillings of
Mailbox and queue; the states meet the invariant (`test_witness_run_inv`, `test_witness_run_inv_mailed`,
`test_witness_run_inv_full`). -/
theorem test_witness_ideal_frame_is_received_whole : (∀ s ∈ [s0, mailed, fullQueue, fullMailed],
    s.rxState = .detectBreak ∧ s.phase = .idle ∧ s.lowCnt = 0 ∧
    s.cfg.kMid + 1 ≤ s.cfg.tpb ∧ 1 ≤ s.cfg.tIfs ∧ 253 + 1 < s.cfg.tBrk ∧ 1 ≤ 254 ∧ 254 < s.cfg.tStart ∧
    (∀ x ∈ [(0x55#8, 62), (0x12#8, 0), (0xAA#8, 6)], x.2 + 1 < s.cfg.tIfs) ∧
    s.cfg.fmin ≤ [(0x55#8, 62), (0x12#8, 0), (0xAA#8, 6)].length + 1 ∧
    [(0x55#8, 62), (0x12#8, 0), (0xAA#8, 6)].length + 1 ≤ s.cfg.fmax) ∧
    (mailed.mbFlag = true ∧ (queued mailed).length + 1 < mailed.cfg.qcap) ∧
    (fullMailed.mbFlag = true ∧ (queued fullMailed).length + 1 = fullMailed.cfg.qcap) ∧
    (s0.mbFlag = false ∧ queued s0 = []) ∧
    (fullQueue.mbFlag = false ∧
      queued fullQueue = { FrameBuffer.empty 11 with count := 4 } :: (queued fullQueue).tail) := by decide

theorem test_witness_q_commit_advances_head :
    (s0.head + 1) % s0.cfg.qcap ≠ s0.tail ∧ (fullQueue.head + 1) % fullQueue.cfg.qcap = fullQueue.tail := by decide

theorem test_witness_handoff_moves_oldest_frame :
    (fullQueue.mbFlag = false ∧ fullQueue.head ≠ fullQueue.tail ∧
      fullQueue.slots[fullQueue.tail]? = some { FrameBuffer.empty 11 with count := 4 }) ∧
    mailed.mbFlag = true ∧ s0.head = s0.tail := by decide

/-- The queue full and empty, the Mailbox empty and full. -/
theorem test_witness_queue_is_fifo :
    (fullQueue.cfg.WF ∧ StorageShape fullQueue ∧
      fullQueue.slots[fullQueue.head]? = some { FrameBuffer.empty 11 with count := 11 } ∧
      (queued fullQueue).length = fullQueue.cfg.qcap - 1 ∧ fullQueue.mbFlag = false ∧
      queued fullQueue = { FrameBuffer.empty 11 with count := 4 } :: (queued fullQueue).tail) ∧
    (StorageShape s0 ∧ queued s0 = [] ∧ s0.mbFlag = false) ∧ (StorageShape mailed ∧ mailed.mbFlag = true) :=
  ⟨⟨by decide, ⟨by decide, by decide, by decide, by decide, by decide⟩, by decide, by decide, by decide, by decide⟩,
    ⟨⟨by decide, by decide, by decide, by decide, by decide⟩, by decide, by decide⟩,
    ⟨⟨by decide, by decide, by decide, by decide, by decide⟩, by decide⟩⟩

/-- A handoff that sets the flag, a read that clears it, and an operation that leaves it set. -/
theorem test_witness_mailbox_flag_gates_the_frame :
    (∃ t, exec .handoff fullQueue = .next t ∧ decide (fullQueue.mbFlag = false ∧ t.mbFlag = true) = true) ∧
    (∃ t, exec .readNextFrame mailed = .next t ∧ decide (mailed.mbFlag = true ∧ t.mbFlag = false) = true) ∧
    (∃ t, exec .qCommit mailed = .next t ∧ decide (mailed.mbFlag = true ∧ t.mbFlag = true) = true) :=
  ⟨next_of_gives (by decide), next_of_gives (by decide), next_of_gives (by decide)⟩

theorem test_witness_read_next_frame_claims_the_mailbox :
    (mailed.cfg.WF ∧ mailed.mbFlag = true) ∧ s0.mbFlag = false := by decide

theorem test_witness_take_errors_fetches_and_clears :
    (withTake.cfg.WF ∧ withTake.cfg.optTakeErrors = true) ∧ s0.cfg.optTakeErrors = false := by decide

theorem test_witness_reads_have_these_side_effects :
    mailed.mbFlag = true ∧ withTake.cfg.optTakeErrors = true ∧
    ∃ t, exec .handoff fullQueue = .next t ∧
      decide (fullQueue.mbFlag = false ∧ fullQueue.head ≠ fullQueue.tail ∧ t.tail = 1) = true :=
  ⟨rfl, rfl, next_of_gives (by decide)⟩

/-- Each of the four operations, and a second state with the same Mailbox and flags. -/
theorem test_witness_consumer_reaches_only_mailbox_and_err :
    (∀ i ∈ [Instr.readNextFrame, .hasErrors, .clearErrors, .takeErrors],
      (i = .readNextFrame ∨ i = .hasErrors ∨ i = .clearErrors ∨ i = .takeErrors) ∧ i.WF withTake.cfg = true ∧
      gives (exec i { withTake with lowCnt := 3 }) fun _ => true) ∧ withTake.cfg.WF := by decide

theorem test_witness_error_flag_is_sticky :
    (∃ t, exec .hasErrors { s0 with err := true } = .next t ∧ decide (t.err = true) = true) ∧
    (∃ t, exec (.raiseFrameError .overrun) s0 = .next t ∧ decide (s0.err = false ∧ t.err = true) = true) :=
  ⟨next_of_gives (by decide), next_of_gives (by decide)⟩

/-- A tick that raises nothing and a tick that raises an error. -/
theorem test_witness_one_error_per_tick :
    (∃ t, exec (.tick .low) s0 = .next t ∧ decide (t.trace = s0.trace) = true) ∧
    (∃ t, exec (.tick .high) { reading 0 with cd := 1 } = .next t ∧ decide (t.trace = [.startFraming]) = true) :=
  ⟨next_of_gives (by decide), next_of_gives (by decide)⟩

theorem test_witness_error_between_read_and_clear :
    ∃ u, exec (.tick .high) { { reading 0 with cfg := withTake.cfg, cd := 1 } with result := .bit false } = .next u ∧
      decide (s0.err = false ∧ u.trace ≠ s0.trace ∧ withTake.cfg.optTakeErrors = true) = true :=
  next_of_gives (by decide)

theorem test_witness_only_tick_moves_the_counter :
    (∃ t, exec (.tick .low) s0 = .next t ∧ decide (t.now = 1) = true) ∧
    (∃ t, exec .init s0 = .next t ∧ decide (t.now = 0) = true) :=
  ⟨next_of_gives (by decide), next_of_gives (by decide)⟩

/-- A form that stores nothing, of each kind the state decides. -/
theorem test_witness_stores_nothing :
    StoresNothing s0 .hasErrors ∧ StoresNothing s0 .dbSample ∧ StoresNothing (line .low (reading 1)) .rdStopSample ∧
    StoresNothing s0 .waitLow ∧ StoresNothing (ifsWait 4 963) .waitPoll ∧
    StoresNothing { reading 1 with bitCnt := 8 } .callback ∧ StoresNothing startWait (.tick .high) ∧
    StoresNothing { reading 1 with bitCnt := 9, cd := 1 } (.tick .low) ∧
    gives (exec (.tick .low) { reading 1 with bitCnt := 9, cd := 1 }) fun _ => true :=
  ⟨trivial, show s0.cfg.tBrk ≠ 0 by decide, rfl, show s0.uop.cont ≠ .brkHigh by decide,
    show (ifsWait 4 963).wCont ≠ .brkHigh by decide, .inr ⟨rfl, .inl (by decide)⟩, .inl ⟨rfl, by decide⟩,
    .inr ⟨rfl, fun _ => .inr ⟨rfl, .inr rfl⟩⟩, by decide⟩

theorem test_witness_producer_writes_only_the_head_slot :
    ∃ t, exec .rdStopSample (line .high { reading 10 with bitCnt := 9 }) = .next t ∧
      decide ((reading 10).slots[(reading 10).head]? = some { FrameBuffer.empty 11 with count := 10 } ∧
        t.slots[(reading 10).head]? = some { FrameBuffer.empty 11 with count := 11 } ∧ Instr.rdStopSample ≠ .init) = true :=
  next_of_gives (by decide)

theorem test_witness_power_on_satisfies_inv : Config.default.WF ∧ 2 ^ 32 - 1 < 2 ^ Config.default.tickW := by decide

theorem test_witness_step_keeps_inv :
    RunInv s0 ∧ ∃ t, step s0 = .next t ∧ decide (t = s0) = true := ⟨test_witness_run_inv, next_of_gives (by decide)⟩

theorem test_witness_nothing_is_fatal :
    RunInv s0 ∧ (Instr.tick .low).isPort = true ∧ (Instr.tick .low).WF s0.cfg = true := ⟨test_witness_run_inv, rfl, rfl⟩

theorem test_witness_delivered_frame_is_whole :
    RunInv mailed ∧ ∃ t, exec .readNextFrame mailed = .next t ∧
      decide (t.result = .frame 4 [0x55, 0x12, 0xAA, 0x37]) = true :=
  ⟨test_witness_run_inv_mailed, next_of_gives (by decide)⟩

/-- Two Mailboxes that differ only beyond the count. -/
theorem test_witness_undefined_bytes_are_invisible :
    SameUpToUndefinedBytes mailed
      { mailed with mbFrame := { e2eFrame with bytes := [0x55, 0x12, 0xAA, 0x37, 1, 2, 3, 4, 5, 6, 7] } } :=
  ⟨List.forall₂_same.2 fun _ _ => ⟨rfl, rfl, rfl⟩, ⟨rfl, rfl, rfl⟩, rfl⟩

/-- V-E2E and TS-5 in the break's wait: the counter's origins differ by `2 ^ 32 - 195`. -/
theorem test_witness_counter_origin_is_invisible :
    (Instr.tick .high).isPort = true ∧
    SameUpToOrigin (2 ^ 32 - 195) { breakWait with now := 249 } { breakWait with now := 54, wBase := 2 ^ 32 - 3 } :=
  ⟨rfl, by decide, fun _ => by decide, rfl⟩

end Sys2Proof.Tests
end

section
/-! SUPPORT. What an operation does to the state the consumer can see: the Mailbox and the Error Flag, with the trace
that records the errors (R24, R26, R27). `Produces` counts neither errors nor handoffs, and both flags' rules need
the count: an action raises at most one error, and a handoff, where there is one, comes last. -/

namespace Sys2Proof.Machine

variable {i : Instr} {s t u : State} {l : Level} {r : WaitResult}

/-- The part of the state that producer and consumer share (R24), with the trace. -/
def sharedView (s : State) : Bool × FrameBuffer × Bool × List Cause := (s.mbFlag, s.mbFrame, s.err, s.trace)

/-- From `s` to `t` the shared state is as it was but for at most one raised error. -/
def RaisesAtMostOne (s t : State) : Prop :=
  sharedView t = sharedView s ∨ ∃ c, sharedView t = sharedView (raiseFrameError c s)

/-- From `s` to `t` the shared state changes by at most one raised error and after it a HANDOFF. -/
def EndsInHandoff (s t : State) : Prop := ∃ u, RaisesAtMostOne s u ∧ handoff u = .next t

/-! ## What at most one error leaves -/

namespace RaisesAtMostOne

/-- A write before the action that leaves the shared state alone does not count. -/
theorem after_own (h : RaisesAtMostOne u t) (hv : sharedView u = sharedView s) : RaisesAtMostOne s t := by
  rcases h with h | ⟨c, h⟩
  · exact .inl (h.trans hv)
  · exact .inr ⟨c, by simp_all [sharedView]⟩

theorem mailbox_eq (h : RaisesAtMostOne s t) : t.mbFlag = s.mbFlag ∧ t.mbFrame = s.mbFrame := by
  rcases h with h | ⟨c, h⟩ <;> simp_all [sharedView]

theorem err_of_err (h : RaisesAtMostOne s t) (he : s.err = true) : t.err = true := by
  rcases h with h | ⟨c, h⟩ <;> simp_all [sharedView]

theorem trace_of_err (h : RaisesAtMostOne s t) (hs : s.err = false) (ht : t.err = true) :
    ∃ c, t.trace = s.trace ++ [c] := by
  rcases h with h | ⟨c, h⟩
  · simp_all [sharedView]
  · exact ⟨c, by simp_all [sharedView]⟩

end RaisesAtMostOne

/-! ## The actions of the producer -/

theorem raisesAtMostOne_qCommit (s : State) : RaisesAtMostOne s (qCommit s) := by
  by_cases h : nextIndex s.cfg s.head = s.tail
  · rw [qCommit_of_full h]; exact .inr ⟨.overrun, rfl⟩
  · rw [qCommit_of_free h]; exact .inl rfl

theorem raisesAtMostOne_waitWith {k : WaitResult → State → Res}
    (hk : ∀ r s t, k r s = .next t → RaisesAtMostOne s t) {level : Level} {max : Nat} {cont : WaitCont}
    (h : waitWith k level max cont l s = .next t) : RaisesAtMostOne s t := by
  by_cases hm : max = 0
  · subst hm; rw [waitWith_of_zero] at h; exact (hk _ _ _ h).after_own rfl
  · by_cases hl : l = level
    · rw [waitWith_of_level hm hl] at h; exact (hk _ _ _ h).after_own rfl
    · rw [waitWith_of_opens hm hl] at h; cases h; exact .inl rfl

theorem raisesAtMostOne_rdAlign (h : rdAlign r s = .next t) : RaisesAtMostOne s t := by cases h; exact .inl rfl

theorem raisesAtMostOne_enterReadData (h : enterReadData l s = .next t) : RaisesAtMostOne s t := by
  obtain ⟨f, -, ⟨-, -, rfl⟩ | ⟨-, rfl⟩⟩ := enterReadData_cases h
  · exact .inl rfl
  · exact .inl rfl

theorem raisesAtMostOne_rdIfsResolve (h : rdIfsResolve r s = .next t) : RaisesAtMostOne s t := by
  rcases rdIfsResolve_cases h with ⟨-, -, rfl⟩ | ⟨-, -, rfl⟩ | ⟨f, -, -, -, rfl⟩ | ⟨f, -, -, -, rfl⟩
  · exact .inr ⟨.frameShort, rfl⟩
  · exact raisesAtMostOne_qCommit s
  · exact .inr ⟨.frameLong, rfl⟩
  · exact .inl rfl

theorem raisesAtMostOne_continueAt {c : WaitCont} (h : continueAt c l r s = .next t) : RaisesAtMostOne s t := by
  cases c with
  | brkHigh => exact raisesAtMostOne_enterReadData h
  | startLow => exact raisesAtMostOne_rdAlign (r := r) h
  | ifsLow => exact raisesAtMostOne_rdIfsResolve h

theorem raisesAtMostOne_rdStartSample (h : rdStartSample l s = .next t) : RaisesAtMostOne s t := by
  cases l with
  | high => cases h; exact .inr ⟨.startFraming, rfl⟩
  | low => cases h; exact .inl rfl

theorem raisesAtMostOne_rdStopSample (h : rdStopSample l s = .next t) : RaisesAtMostOne s t := by
  cases l with
  | low => cases h; exact .inr ⟨.stopFraming, rfl⟩
  | high =>
    obtain ⟨u, hu, e⟩ := andThen_eq_next.1 h
    obtain ⟨f, -, -, rfl⟩ := appendByte_eq_next hu
    exact (raisesAtMostOne_waitWith (fun _ _ _ => raisesAtMostOne_rdIfsResolve) e).after_own rfl

theorem raisesAtMostOne_dbSample (h : dbSample l s = .next t) : RaisesAtMostOne s t := by
  cases l with
  | high => cases h; exact .inl rfl
  | low =>
    simp only [dbSample] at h
    split at h
    · exact (raisesAtMostOne_waitWith (fun _ _ _ => raisesAtMostOne_enterReadData) h).after_own rfl
    · cases h; exact .inl rfl

theorem raisesAtMostOne_sample (h : sample l s = .next t) : RaisesAtMostOne s t := by
  unfold sample at h
  split at h
  · exact raisesAtMostOne_dbSample h
  · split at h
    · exact raisesAtMostOne_rdStartSample h
    · split at h
      · cases h; exact .inl rfl
      · exact raisesAtMostOne_rdStopSample h

/-! ## The forms that can hand a frame off -/

/-- The epilogue hands off unless a wait is open (R114, R120). -/
theorem andThen_epilogue_shared {x : Res} (h : andThen x epilogue = .next t)
    (hx : ∀ u, x = .next u → RaisesAtMostOne s u) : RaisesAtMostOne s t ∨ EndsInHandoff s t := by
  obtain ⟨u, hu, e⟩ := andThen_eq_next.1 h
  cases hp : u.phase with
  | idle => rw [epilogue_of_idle hp] at e; exact .inr ⟨u, hx u hu, e⟩
  | wait => rw [epilogue_of_wait hp] at e; cases e; exact .inl (hx t hu)

theorem callback_shared (h : callback l s = .next t) : RaisesAtMostOne s t ∨ EndsInHandoff s t :=
  andThen_epilogue_shared h fun _ => raisesAtMostOne_sample

theorem waitPoll_shared (h : waitPoll l s = .next t) : RaisesAtMostOne s t ∨ EndsInHandoff s t := by
  by_cases hb : s.wMax ≤ elapsed s
  · rw [waitPoll_of_bound hb] at h
    exact andThen_epilogue_shared h fun _ e => (raisesAtMostOne_continueAt e).after_own rfl
  · by_cases hl : l = s.wLevel
    · rw [waitPoll_of_level (Nat.lt_of_not_le hb) hl] at h
      exact andThen_epilogue_shared h fun _ e => (raisesAtMostOne_continueAt e).after_own rfl
    · rw [waitPoll_of_stays (Nat.lt_of_not_le hb) hl] at h; cases h; exact .inl (.inl rfl)

theorem tick_shared (h : tick l s = .next t) : RaisesAtMostOne s t ∨ EndsInHandoff s t := by
  rcases tick_cases h with ⟨-, e⟩ | ⟨-, -, e⟩ | ⟨-, -, rfl⟩
  · exact waitPoll_shared (s := advanceNow s) e
  · exact callback_shared (s := { advanceNow s with cd := s.cfg.tpb }) e
  · exact .inl (.inl rfl)

/-! ## Every operation -/

/-- All an operation can do to the shared state when it answers. -/
inductive SharedEffect (i : Instr) (s t : State) : Prop where
  /-- INIT empties the Mailbox and clears both flags (R200). -/
  | init (hi : i = .init) (hm : t.mbFlag = false) (he : t.err = false)
  /-- READ_NEXT_FRAME clears the Mailbox flag (R160). -/
  | claim (hi : i = .readNextFrame) (hm : t.mbFlag = false) (hf : t.mbFrame = s.mbFrame) (he : t.err = s.err)
  /-- CLEAR_ERRORS and TAKE_ERRORS clear the Error Flag (R162, R163). -/
  | clear (hi : i = .clearErrors ∨ i = .takeErrors) (hm : t.mbFlag = s.mbFlag) (hf : t.mbFrame = s.mbFrame)
      (he : t.err = false)
  /-- Any other operation raises at most one error. -/
  | raises (h : RaisesAtMostOne s t)
  /-- HANDOFF, or a form that ends with it, raises at most one error before it (R114, R120, R152). -/
  | handsOff (hi : i = .handoff ∨ i = .callback ∨ i = .waitPoll ∨ ∃ l, i = .tick l) (h : EndsInHandoff s t)

theorem SharedEffect.of_returning {x : OpResult} (h : SharedEffect i (returning x s) t) :
    SharedEffect i s t := by
  cases h with
  | init hi hm he => exact .init hi hm he
  | claim hi hm hf he => exact .claim hi hm hf he
  | clear hi hm hf he => exact .clear hi hm hf he
  | raises h => exact .raises h
  | handsOff hi h => exact .handsOff hi h

theorem takeErrors_eq_next (h : exec .takeErrors s = .next t) : t = takeErrors (returning .nothing s) := by
  rw [exec_takeErrors (wf_of_exec_next h)] at h
  split at h
  · cases h; rfl
  · cases h

theorem readNextFrame_mailbox (s : State) :
    (readNextFrame s).mbFlag = false ∧ (readNextFrame s).mbFrame = s.mbFrame ∧ (readNextFrame s).err = s.err := by
  cases hm : s.mbFlag <;> simp [readNextFrame, hm]

theorem sharedEffect_of_exec (h : exec i s = .next t) : SharedEffect i s t := by
  have hw := wf_of_exec_next h
  apply SharedEffect.of_returning (x := .nothing)
  cases i with
  | init => rw [exec_init hw] at h; cases h; exact .init rfl rfl rfl
  | readNextFrame =>
    rw [exec_readNextFrame hw] at h
    cases h
    obtain ⟨hm, hf, he⟩ := readNextFrame_mailbox (returning .nothing s)
    exact .claim rfl hm hf he
  | clearErrors => rw [exec_clearErrors hw] at h; cases h; exact .clear (.inl rfl) rfl rfl rfl
  | takeErrors => cases takeErrors_eq_next h; exact .clear (.inr rfl) rfl rfl rfl
  | handoff => rw [exec_handoff hw] at h; exact .handsOff (.inl rfl) ⟨_, .inl rfl, h⟩
  | callback =>
    rw [exec_callback hw] at h
    exact (callback_shared h).elim .raises (.handsOff (.inr (.inl rfl)))
  | waitPoll =>
    rw [exec_waitPoll hw] at h
    exact (waitPoll_shared h).elim .raises (.handsOff (.inr (.inr (.inl rfl))))
  | tick l =>
    rw [exec_tick hw] at h
    exact (tick_shared h).elim .raises (.handsOff (.inr (.inr (.inr ⟨l, rfl⟩))))
  | hasErrors => rw [exec_hasErrors hw] at h; cases h; exact .raises (.inl rfl)
  | dbSample => rw [exec_dbSample hw] at h; exact .raises (raisesAtMostOne_dbSample h)
  | rdEntry => rw [exec_rdEntry hw] at h; exact .raises (raisesAtMostOne_enterReadData h)
  | rdAlign => rw [exec_rdAlign hw] at h; exact .raises (raisesAtMostOne_rdAlign h)
  | rdStartSample => rw [exec_rdStartSample hw] at h; exact .raises (raisesAtMostOne_rdStartSample h)
  | rdDataSample => rw [exec_rdDataSample hw] at h; cases h; exact .raises (.inl rfl)
  | rdStopSample => rw [exec_rdStopSample hw] at h; exact .raises (raisesAtMostOne_rdStopSample h)
  | rdIfsResolve => rw [exec_rdIfsResolve hw] at h; exact .raises (raisesAtMostOne_rdIfsResolve h)
  | dbEntry => rw [exec_dbEntry hw] at h; cases h; exact .raises (.inl rfl)
  | dbBreakEnd => rw [exec_dbBreakEnd hw] at h; exact .raises (raisesAtMostOne_enterReadData h)
  | qCommit => rw [exec_qCommit hw] at h; cases h; exact .raises (raisesAtMostOne_qCommit _)
  | waitLow =>
    rw [exec_waitLow hw] at h
    obtain ⟨m, -, e⟩ := withOperand_eq_next.1 h
    exact .raises (raisesAtMostOne_waitWith (fun _ _ _ => raisesAtMostOne_continueAt) e)
  | waitHigh =>
    rw [exec_waitHigh hw] at h
    obtain ⟨m, -, e⟩ := withOperand_eq_next.1 h
    exact .raises (raisesAtMostOne_waitWith (fun _ _ _ => raisesAtMostOne_continueAt) e)
  | tsNow => rw [exec_tsNow hw] at h; cases h; exact .raises (.inl rfl)
  | tsResetPeriod => rw [exec_tsResetPeriod hw] at h; cases h; exact .raises (.inl rfl)
  | tsScheduleNext =>
    rw [exec_tsScheduleNext hw] at h
    obtain ⟨k, -, e⟩ := withOperand_eq_next.1 h
    cases e; exact .raises (.inl rfl)
  | raiseFrameError c => rw [exec_raiseFrameError hw] at h; cases h; exact .raises (.inr ⟨c, rfl⟩)

/-! ## HANDOFF -/

theorem handoff_errors_eq (h : handoff s = .next t) : t.err = s.err ∧ t.trace = s.trace := by
  rcases handoff_cases h with ⟨-, rfl⟩ | ⟨f, -, -, -, rfl⟩ <;> exact ⟨rfl, rfl⟩

theorem handoff_full_eq (h : handoff s = .next t) (hm : s.mbFlag = true) : t = s := by
  rw [handoff_of_idle (.inl hm)] at h; cases h; rfl

theorem handoff_fills (h : handoff s = .next t) (hs : s.mbFlag = false) (ht : t.mbFlag = true) :
    s.slots[s.tail]? = some t.mbFrame := by
  rcases handoff_cases h with ⟨-, rfl⟩ | ⟨f, -, -, hf, rfl⟩
  · simp [hs] at ht
  · exact hf

namespace EndsInHandoff

theorem mailbox_eq_of_full (h : EndsInHandoff s t) (hm : s.mbFlag = true) :
    t.mbFlag = true ∧ t.mbFrame = s.mbFrame := by
  obtain ⟨u, hu, e⟩ := h
  obtain ⟨hflag, hframe⟩ := hu.mailbox_eq
  obtain rfl := handoff_full_eq e (hflag.trans hm)
  exact ⟨hflag.trans hm, hframe⟩

theorem err_of_err (h : EndsInHandoff s t) (he : s.err = true) : t.err = true := by
  obtain ⟨u, hu, e⟩ := h
  exact (handoff_errors_eq e).1.trans (hu.err_of_err he)

theorem trace_of_err (h : EndsInHandoff s t) (hs : s.err = false) (ht : t.err = true) :
    ∃ c, t.trace = s.trace ++ [c] := by
  obtain ⟨u, hu, e⟩ := h
  obtain ⟨herr, htrace⟩ := handoff_errors_eq e
  rw [htrace]
  exact hu.trace_of_err hs (herr.symm.trans ht)

end EndsInHandoff

/-! ## The Mailbox flag (R27) -/

theorem exec_clears_mbFlag (hi : i = .readNextFrame ∨ i = .init) (h : exec i s = .next t) : t.mbFlag = false := by
  have hw := wf_of_exec_next h
  rcases hi with rfl | rfl
  · rw [exec_readNextFrame hw] at h; cases h; exact (readNextFrame_mailbox _).1
  · rw [exec_init hw] at h; cases h; rfl

theorem exec_mbFlag_cleared_by (h : exec i s = .next t) (hs : s.mbFlag = true) (ht : t.mbFlag = false) :
    i = .readNextFrame ∨ i = .init := by
  have kept : t.mbFlag ≠ true := by simp [ht]
  cases sharedEffect_of_exec h with
  | init hi => exact .inr hi
  | claim hi => exact .inl hi
  | clear _ hm => exact absurd (hm.trans hs) kept
  | raises hr => exact absurd (hr.mailbox_eq.1.trans hs) kept
  | handsOff _ ho => exact absurd (ho.mailbox_eq_of_full hs).1 kept

theorem exec_mbFlag_set_by_handoff (h : exec i s = .next t) (hs : s.mbFlag = false) (ht : t.mbFlag = true) :
    (i = .handoff ∨ i = .callback ∨ i = .waitPoll ∨ ∃ l, i = .tick l) ∧
      ∃ u, handoff u = .next t ∧ u.mbFlag = false ∧ u.slots[u.tail]? = some t.mbFrame := by
  have unset : t.mbFlag ≠ false := by simp [ht]
  cases sharedEffect_of_exec h with
  | init _ hm => exact absurd hm unset
  | claim _ hm => exact absurd hm unset
  | clear _ hm => exact absurd (hm.trans hs) unset
  | raises hr => exact absurd (hr.mailbox_eq.1.trans hs) unset
  | handsOff hi ho =>
    obtain ⟨u, hu, e⟩ := ho
    have hflag : u.mbFlag = false := hu.mailbox_eq.1.trans hs
    exact ⟨hi, u, e, hflag, handoff_fills e hflag ht⟩

theorem exec_keeps_unclaimed_mbFrame (h : exec i s = .next t) (hs : s.mbFlag = true) (hi : i ≠ .init) :
    t.mbFrame = s.mbFrame := by
  cases sharedEffect_of_exec h with
  | init hn => exact absurd hn hi
  | claim _ _ hf => exact hf
  | clear _ _ hf => exact hf
  | raises hr => exact hr.mailbox_eq.2
  | handsOff _ ho => exact (ho.mailbox_eq_of_full hs).2

/-- Settles O40: a case split over what an operation can do to the shared state, where only HANDOFF, run last, sets the
flag, and a HANDOFF over a set flag moves nothing. -/
theorem mailboxFlagGatesTheFrame : Obligations.MailboxFlagGatesTheFrame :=
  ⟨rfl, fun _ _ _ h => ⟨fun hi => exec_clears_mbFlag hi h, exec_mbFlag_cleared_by h, exec_mbFlag_set_by_handoff h,
    exec_keeps_unclaimed_mbFrame h⟩⟩

/-! ## The Error Flag (R26) -/

theorem exec_returns_err (hi : i = .hasErrors ∨ i = .takeErrors) (h : exec i s = .next t) :
    t.result = .bit s.err := by
  rcases hi with rfl | rfl
  · rw [exec_hasErrors (wf_of_exec_next h)] at h; cases h; rfl
  · rw [takeErrors_eq_next h]; rfl

theorem exec_keeps_err (h : exec i s = .next t) (hs : s.err = true) (hinit : i ≠ .init) (hclear : i ≠ .clearErrors)
    (htake : i ≠ .takeErrors) : t.err = true := by
  cases sharedEffect_of_exec h with
  | init hi => exact absurd hi hinit
  | claim _ _ _ he => exact he.trans hs
  | clear hi => exact (hi.elim hclear htake).elim
  | raises hr => exact hr.err_of_err hs
  | handsOff _ ho => exact ho.err_of_err hs

theorem exec_err_set_by_raise (h : exec i s = .next t) (hs : s.err = false) (ht : t.err = true) :
    ∃ c, t.trace = s.trace ++ [c] := by
  have unset : t.err ≠ false := by simp [ht]
  cases sharedEffect_of_exec h with
  | init _ _ he => exact absurd he unset
  | claim _ _ _ he => exact absurd (he.trans hs) unset
  | clear _ _ _ he => exact absurd he unset
  | raises hr => exact hr.trace_of_err hs ht
  | handsOff _ ho => exact ho.trace_of_err hs ht

/-- Settles O48: a case split over what an operation can do to the shared state, where only a raised error, which the
trace records, sets the flag, and only INIT and the two clears reset it. -/
theorem errorFlagIsSticky : Obligations.ErrorFlagIsSticky :=
  ⟨rfl, fun _ _ _ h => ⟨fun hi => exec_returns_err hi h, exec_keeps_err h, exec_err_set_by_raise h⟩⟩

end Sys2Proof.Machine
end

section
/-! SUPPORT. The accumulator under the data samples: one sample in bits, and the byte they assemble (R53, R133). -/

namespace Sys2Proof.Machine

variable {s : State} {k : Nat}

/-- The mask `2^k - 1` keeps the bits below `k`. -/
theorem getLsbD_and_lowMask {w : Nat} (b : BitVec w) (k i : Nat) :
    (b &&& BitVec.ofNat w (2 ^ k - 1)).getLsbD i = (b.getLsbD i && decide (i < k)) := by
  rw [BitVec.getLsbD_and, BitVec.getLsbD_ofNat, Nat.testBit_two_pow_sub_one]
  by_cases hi : i < w
  · simp [hi]
  · simp [BitVec.getLsbD_of_ge _ _ (Nat.le_of_not_lt hi)]

/-- One more low bit is the low bits below it and bit `k`, at the sample mask. -/
theorem and_lowMask_succ {w : Nat} (b : BitVec w) (k : Nat) :
    b &&& BitVec.ofNat w (2 ^ (k + 1) - 1) =
      (b &&& BitVec.ofNat w (2 ^ k - 1)) ||| if b.getLsbD k then 1#w <<< k else 0#w := by
  apply BitVec.eq_of_getLsbD_eq
  intro i hi
  have hbit : (if b.getLsbD k then 1#w <<< k else 0#w).getLsbD i = (b.getLsbD i && decide (i = k)) := by
    by_cases hik : i = k
    · subst hik; cases b.getLsbD i <;> simp [hi]
    · cases b.getLsbD k
      · simp [hik]
      · simp [hik]; omega
  rw [BitVec.getLsbD_or, getLsbD_and_lowMask, getLsbD_and_lowMask, hbit, ← Bool.and_or_distrib_left]
  congr 1
  simp [Nat.le_iff_lt_or_eq]

/-- The level of a data bit period is the byte's bit, least significant first (R71). -/
theorem charLevel_data (b : Byte) (hk : k < 8) : charLevel b (k + 1) = Level.ofBit (b.getLsbD k) := by
  simp [charLevel, Nat.succ_le_of_lt hk]

/-- A data sample in bits: a set bit is added to the accumulator at the mask (R133). -/
theorem rdDataSample_ofBit (x : Bool) (s : State) :
    rdDataSample (Level.ofBit x) s =
      { s with acc := s.acc ||| (if x then s.mask else 0#8), mask := s.mask <<< 1, bitCnt := s.bitCnt + 1 } := by
  cases x <;> simp [rdDataSample, Level.ofBit]

/-- A byte being assembled: the state after `k` data samples of `b`, with the low `k` bits in the accumulator. -/
def assembling (b : Byte) (k : Nat) (s : State) : State :=
  { s with acc := b &&& BitVec.ofNat 8 (2 ^ k - 1), mask := 0x01#8 <<< k, bitCnt := k + 1 }

theorem rdDataSample_assembling (b : Byte) (hk : k < 8) (s : State) :
    rdDataSample (charLevel b (k + 1)) (assembling b k s) = assembling b (k + 1) s := by
  rw [charLevel_data b hk, rdDataSample_ofBit]
  simp only [assembling, and_lowMask_succ b k, BitVec.shiftLeft_add]

/-- What the start sample leaves is a byte with no bit assembled yet (R132). -/
theorem assembling_zero (b : Byte) (hc : s.bitCnt = 1) (ha : s.acc = 0x00) (hm : s.mask = 0x01) :
    assembling b 0 s = s := by
  cases s; simp_all [assembling]

/-- Settles O32: by induction on the samples taken, each of which adds the next bit of the byte. -/
theorem dataBitsAssembleLsbFirst : Obligations.DataBitsAssembleLsbFirst := by
  intro b s hc ha hm k hk
  change _ = assembling b k s
  induction k with
  | zero => exact (assembling_zero b hc ha hm).symm
  | succ k ih =>
    rw [List.range_succ, List.foldl_append, ih (Nat.le_of_succ_le hk)]
    exact rdDataSample_assembling b hk s

end Sys2Proof.Machine
end

section
/-! SUPPORT. The side effects of reads (R57): what the consumer's operations leave when they are done
twice, and what HANDOFF's read of a slot does to the tail. -/

namespace Sys2Proof.Machine

variable {s t : State}

@[simp] theorem readNextFrame_cfg (s : State) : (readNextFrame s).cfg = s.cfg := by
  cases hm : s.mbFlag <;> simp [readNextFrame, hm]

theorem exec_readNextFrame_of_empty (hw : s.cfg.WF) (hm : s.mbFlag = false) :
    exec .readNextFrame s = .next (returning .noFrame s) := by
  rw [exec_readNextFrame hw]
  simp [readNextFrame, hm, returning]

theorem exec_takeErrors_of_option (hw : s.cfg.WF) (ho : s.cfg.optTakeErrors = true) :
    exec .takeErrors s = .next (takeErrors (returning .nothing s)) := by
  rw [exec_takeErrors hw, if_pos ho]

/-- HAS_ERRORS writes its result and nothing else (R161). -/
theorem exec_hasErrors_eq_returning (hw : s.cfg.WF) : exec .hasErrors s = .next (returning (.bit s.err) s) :=
  exec_hasErrors hw

/-- A HANDOFF that moves a frame advances the tail (R152). -/
theorem exec_handoff_advances_tail (h : exec .handoff s = .next t) (hm : s.mbFlag = false) (hq : s.head ≠ s.tail) :
    t.tail = (s.tail + 1) % s.cfg.qcap := by
  rw [exec_handoff (wf_of_exec_next h)] at h
  rcases handoff_cases h with ⟨hidle, -⟩ | ⟨f, -, -, -, rfl⟩
  · simp [hm, hq] at hidle
  · rfl

theorem readNextFrame_twice_returns_noFrame (hw : s.cfg.WF) :
    ∃ t u, exec .readNextFrame s = .next t ∧ t.mbFlag = false ∧ exec .readNextFrame t = .next u ∧
      u.result = .noFrame := by
  let t := readNextFrame (returning .nothing s)
  have hcfg : t.cfg = s.cfg := readNextFrame_cfg _
  have hempty : t.mbFlag = false := (readNextFrame_mailbox _).1
  exact ⟨t, _, exec_readNextFrame hw, hempty, exec_readNextFrame_of_empty (hcfg ▸ hw) hempty, rfl⟩

theorem takeErrors_twice_returns_false (hw : s.cfg.WF) (ho : s.cfg.optTakeErrors = true) :
    ∃ t u, exec .takeErrors s = .next t ∧ t.err = false ∧ exec .takeErrors t = .next u ∧ u.result = .bit false :=
  ⟨_, _, exec_takeErrors_of_option hw ho, rfl, exec_takeErrors_of_option hw ho, rfl⟩

theorem hasErrors_idempotent (hw : s.cfg.WF) :
    ∃ t, exec .hasErrors s = .next t ∧ t = { s with result := t.result } ∧ exec .hasErrors t = .next t :=
  ⟨_, exec_hasErrors_eq_returning hw, rfl, exec_hasErrors_eq_returning hw⟩

theorem clearErrors_idempotent (hw : s.cfg.WF) :
    ∃ t, exec .clearErrors s = .next t ∧ exec .clearErrors t = .next t :=
  ⟨_, exec_clearErrors hw, exec_clearErrors hw⟩

/-- Settles O45: one lemma per read; the consumer's run the operation again in the state it left. -/
theorem readsHaveTheseSideEffects : Obligations.ReadsHaveTheseSideEffects := fun _ hw =>
  ⟨fun _ => readNextFrame_twice_returns_noFrame hw, takeErrors_twice_returns_false hw, hasErrors_idempotent hw,
    clearErrors_idempotent hw, fun _ => exec_handoff_advances_tail⟩

end Sys2Proof.Machine
end

section
/-! SUPPORT. The callback's sample in ReadData, one rule per bit position (R120), and the start, data and stop samples
(R132 to R134). -/

namespace Sys2Proof.Machine

variable {s : State} {l : Level}

/-! ## The sample a callback takes in ReadData, by `bit_cnt` -/

theorem sample_of_startBit (hr : s.rxState = .readData) (hb : s.bitCnt = 0) : sample l s = rdStartSample l s := by
  simp [sample, hr, hb]

theorem sample_of_dataBit (hr : s.rxState = .readData) (h1 : 1 ≤ s.bitCnt) (h8 : s.bitCnt ≤ 8) :
    sample l s = .next (rdDataSample l s) := by
  simp [sample, hr, Nat.ne_of_gt h1, h8]

theorem sample_of_stopBit (hr : s.rxState = .readData) (hb : s.bitCnt = 9) : sample l s = rdStopSample l s := by
  simp [sample, hr, hb]

/-- A CALLBACK whose sample is the operation `i` is `i` and then the epilogue (R120). -/
theorem exec_callback_of_sample {i : Instr} {r : Res} (hw : s.cfg.WF) (hi : exec i s = r)
    (hs : sample s.uop.line (returning .nothing s) = r) : exec .callback s = andThen (exec i s) epilogue := by
  rw [exec_callback hw, callback, hs, hi]

/-! ## What the samples do -/

theorem rdDataSample_eq (l : Level) (s : State) :
    rdDataSample l s = { s with
      acc := if l = .high then s.acc ||| s.mask else s.acc, mask := s.mask <<< 1, bitCnt := s.bitCnt + 1 } := by
  cases l <;> rfl

/-- A high stop sample with room in the head slot appends the byte and starts the inter-byte wait (R134). -/
theorem rdStopSample_of_room {f : FrameBuffer} (hf : s.slots[s.head]? = some f) (hroom : f.count < f.bytes.length) :
    rdStopSample .high s = waitLow s.cfg.tIfs .ifsLow .high { s with
      slots := s.slots.set s.head { count := f.count + 1, bytes := f.bytes.set f.count s.acc },
      bytesRead := s.bytesRead + 1, bitCnt := 0 } := by
  rw [rdStopSample, appendByte_of_room _ hf hroom, andThen_next, waitLow_ifsLow]
  rfl

/-- WAIT_LOW with a bound, at a tick whose line is high, opens the wait (R112). -/
theorem waitLow_of_high {max : Nat} (cont : WaitCont) (hm : max ≠ 0) (s : State) :
    waitLow max cont .high s = .next { s with
      wBase := s.now, cd := s.cfg.tpb, phase := .wait, wLevel := .low, wMax := max, wCont := cont } :=
  waitWith_of_opens hm (by decide)

/-! ## The obligations -/

/-- Settles O28: the sample rule at `bit_cnt = 0`, and one computation for each level of the sample. -/
theorem rdStartSampleChecksStartBit : Obligations.RdStartSampleChecksStartBit := by
  intro s hw
  have hexec := exec_rdStartSample hw
  refine ⟨fun hr hb => ?_, fun hl => ?_, fun hl => ?_⟩
  · exact exec_callback_of_sample hw hexec (sample_of_startBit hr hb)
  · rw [hexec, hl]; rfl
  · rw [hexec, hl]; rfl

/-- Settles O29: the sample rule at `bit_cnt` in 1..8, and the data sample as one update of the state. -/
theorem rdDataSampleCollectsBit : Obligations.RdDataSampleCollectsBit := by
  intro s hw
  have hexec := exec_rdDataSample hw
  refine ⟨fun hr h1 h8 => ?_, ?_⟩
  · exact exec_callback_of_sample hw hexec (sample_of_dataBit hr h1 h8)
  · rw [hexec, rdDataSample_eq]; rfl

/-- Settles O30: the sample rule at `bit_cnt = 9`; a low sample is one computation, and a high one appends and then
waits, where a bound other than 0 leaves the wait open because the line is high. -/
theorem rdStopSampleAppendsByte : Obligations.RdStopSampleAppendsByte := by
  intro s hw
  have hexec := exec_rdStopSample hw
  refine ⟨fun hr hb => ?_, fun hl => ?_, fun f hl hf hroom => ?_⟩
  · exact exec_callback_of_sample hw hexec (sample_of_stopBit hr hb)
  · rw [hexec, hl]; rfl
  · rw [hl] at hexec
    have happend := hexec.trans (rdStopSample_of_room (s := returning .nothing s) hf hroom)
    exact ⟨happend, fun hm => happend.trans (waitLow_of_high .ifsLow hm _)⟩

end Sys2Proof.Machine
end

section
/-! SUPPORT. The consumer's reach (R164): each of its operations writes `mb.flag`, `err` and its result, to values that
the Mailbox and the Error Flag determine. -/

namespace Sys2Proof.Machine

variable {s : State} {i : Instr}

/-- What a consumer operation writes: the Mailbox flag, the Error Flag and its result. -/
structure ConsumerReply where
  mbFlag : Bool
  err : Bool
  result : OpResult

def ConsumerReply.write (r : ConsumerReply) (s : State) : State :=
  { s with mbFlag := r.mbFlag, err := r.err, result := r.result }

/-- On every core that has the operation `i`, it completes with the reply `reply mb.flag mb.frame err` and writes
nothing else. -/
def RepliesFromMailboxAndErr (i : Instr) (reply : Bool → FrameBuffer → Bool → ConsumerReply) : Prop :=
  ∀ s : State, s.cfg.WF → i.WF s.cfg = true → exec i s = .next ((reply s.mbFlag s.mbFrame s.err).write s)

theorem exec_readNextFrame_of_full (hw : s.cfg.WF) (hm : s.mbFlag = true) :
    exec .readNextFrame s = .next (clearMbFlag (returning (frameResult s.mbFrame) s)) := by
  rw [exec_readNextFrame hw]
  simp [readNextFrame, hm, returning]

/-- The flag is clear after READ_NEXT_FRAME whether or not it was set (R160). -/
theorem readNextFrame_repliesFromMailboxAndErr :
    RepliesFromMailboxAndErr .readNextFrame fun flag frame err =>
      ⟨false, err, if flag then frameResult frame else .noFrame⟩ := by
  intro s hw _
  cases hm : s.mbFlag with
  | true => exact exec_readNextFrame_of_full hw hm
  | false => simp [exec_readNextFrame_of_empty hw hm, returning, ConsumerReply.write, hm]

theorem hasErrors_repliesFromMailboxAndErr :
    RepliesFromMailboxAndErr .hasErrors fun flag _ err => ⟨flag, err, .bit err⟩ :=
  fun _ hw _ => exec_hasErrors_eq_returning hw

theorem clearErrors_repliesFromMailboxAndErr :
    RepliesFromMailboxAndErr .clearErrors fun flag _ _ => ⟨flag, false, .nothing⟩ :=
  fun _ hw _ => exec_clearErrors hw

/-- On a core that has it, that is with the option (R163). -/
theorem takeErrors_repliesFromMailboxAndErr :
    RepliesFromMailboxAndErr .takeErrors fun flag _ err => ⟨flag, false, .bit err⟩ :=
  fun _ hw ho => exec_takeErrors_of_option hw ho

theorem consumer_repliesFromMailboxAndErr
    (hi : i = .readNextFrame ∨ i = .hasErrors ∨ i = .clearErrors ∨ i = .takeErrors) :
    ∃ reply, RepliesFromMailboxAndErr i reply := by
  rcases hi with rfl | rfl | rfl | rfl
  · exact ⟨_, readNextFrame_repliesFromMailboxAndErr⟩
  · exact ⟨_, hasErrors_repliesFromMailboxAndErr⟩
  · exact ⟨_, clearErrors_repliesFromMailboxAndErr⟩
  · exact ⟨_, takeErrors_repliesFromMailboxAndErr⟩

/-- Two cores that agree on the configuration, the Mailbox and the Error Flag get the same reply. -/
theorem RepliesFromMailboxAndErr.same_reply {reply : Bool → FrameBuffer → Bool → ConsumerReply} {s' t' : State}
    (h : RepliesFromMailboxAndErr i reply) (hi : i.WF s.cfg = true) (hc : s'.cfg = s.cfg)
    (hm : s'.mbFlag = s.mbFlag) (hf : s'.mbFrame = s.mbFrame) (he : s'.err = s.err) (hx : exec i s' = .next t') :
    t' = (reply s.mbFlag s.mbFrame s.err).write s' := by
  have hreply := h s' (wf_of_exec_next hx) (hc ▸ hi)
  rw [hx, hm, hf, he] at hreply
  cases hreply
  rfl

/-- Settles O42: the operation returns the flag and does nothing more. -/
theorem hasErrorsReturnsTheFlag : Obligations.HasErrorsReturnsTheFlag :=
  fun _ => exec_hasErrors_eq_returning

/-- Settles O46: the operation writes a reply that is a function of the Mailbox and the Error Flag, so a core that
agrees on these gets the same one. -/
theorem consumerReachesOnlyMailboxAndErr : Obligations.ConsumerReachesOnlyMailboxAndErr := by
  intro i s hi hw hwf
  obtain ⟨reply, h⟩ := consumer_repliesFromMailboxAndErr hi
  refine ⟨_, h s hw hwf, rfl, fun s' t' hc hm hf he hx => ?_⟩
  cases h.same_reply hwf hc hm hf he hx
  exact ⟨rfl, rfl, rfl⟩

end Sys2Proof.Machine
end

section
/-! SUPPORT. The encoding (R74 to R80): a word is its fields, the decoder inverts the encoder, the port's decoder is the
table's on port operations; and the step, which fetches by it. -/

namespace Sys2Proof

/-! ## A word and its fields -/

/-- A command word is bit 7, the operation, the must-be-zero bits and the operand bit (R74). -/
theorem byte_eq_fields (w : Byte) :
    w = BitVec.ofBool w[7] ++ w.extractLsb' 4 3 ++ w.extractLsb' 1 3 ++ BitVec.ofBool w[0] := by
  grind

/-- The word of RAISE_FRAME_ERROR is its fixed leading bits and its cause (R79). -/
theorem byte_eq_prefix_append_cause (w : Byte) : w = w.extractLsb' 3 5 ++ w.extractLsb' 0 3 := by
  grind

/-! ## The decoder inverts the encoder -/

theorem decode_encode (i : Instr) : decode (encode i) = .ok i := by
  cases i with
  | tick l => cases l <;> rfl
  | raiseFrameError c => cases c <;> rfl
  | _ => rfl

/-- Each operation `decodeOp` answers fixes the operation field, and the other fields are checked before. -/
theorem encode_of_decodeOp {w : Byte} {i : Instr} (hw : w[7] = false) (h : decodeOp w = .ok i) : encode i = w := by
  rw [byte_eq_fields w, hw]
  simp only [decodeOp] at h
  split_ifs at h with hres hz h1 hbit hop hop hop hop
  case pos =>
    rw [not_not.1 hz, h1]
    cases h
    cases w[0] <;> rfl
  all_goals rw [not_not.1 hz, Bool.eq_false_iff.2 hbit]
  case neg =>
    have h5 : w.extractLsb' 4 3 = 5 := by bv_omega
    rw [h5]; cases h; rfl
  all_goals rw [hop]; cases h; rfl

theorem code_of_decodeCause {c : BitVec 3} {x : Cause} (h : decodeCause c = .ok x) : x.code = c := by
  unfold decodeCause at h
  split at h <;> cases h <;> rfl

theorem encode_of_decodeCode {w : Byte} {i : Instr} (h : decodeCode w = .ok i) : encode i = w := by
  unfold decodeCode at h
  split at h
  case h_19 =>
    split at h
    next hpre =>
      split at h
      next c hc =>
        cases h
        rw [byte_eq_prefix_append_cause w, hpre, ← code_of_decodeCause hc]
        rfl
      next => cases h
    next => cases h
  all_goals cases h; rfl

theorem decode_eq_ok_iff {w : Byte} {i : Instr} : decode w = .ok i ↔ encode i = w := by
  constructor
  · intro h
    unfold decode at h
    split at h
    next => exact encode_of_decodeCode h
    next hw => exact encode_of_decodeOp (Bool.eq_false_iff.2 hw) h
  · rintro rfl
    exact decode_encode i

/-- Settles O1: the decoder answers each encoding, and a word it answers has the fields of the operation's word. -/
theorem decodeAndEncodeAgree : Obligations.DecodeAndEncodeAgree := fun _ _ => decode_eq_ok_iff

/-- Settles O3: each word is its operation's encoding. -/
theorem specWordsDecode : Obligations.SpecWordsDecode :=
  ⟨decode_encode .init, decode_encode (.tick .high), decode_encode .readNextFrame, decode_encode .waitPoll,
    decode_encode .dbSample, decode_encode .rdStopSample, decode_encode .handoff, decode_encode .tsScheduleNext,
    decode_encode (.raiseFrameError .overrun)⟩

/-! ## The port and the internal codes -/

theorem encode_bit7 (i : Instr) : (encode i)[7] = !i.isPort := by
  cases i with
  | tick l => exact (Laws.WordClass.tick l).1
  | raiseFrameError c => exact (Laws.WordClass.raiseFrameError c).1
  | _ => rfl

theorem decodePort_eq_ok_iff {c : Config} {w : Byte} {i : Instr} :
    decodePort c w = .ok i ↔ w[7] = false ∧ decode w = .ok i ∧ i.WF c = true := by
  unfold decodePort decode
  cases w[7] with
  | true => simp
  | false =>
    cases decodeOp w with
    | error r => simp
    | ok j =>
      by_cases hj : j.WF c = true
      · simp only [hj, Bool.false_eq_true, if_true, if_false]
        exact ⟨fun h => by cases h; exact ⟨trivial, rfl, hj⟩, fun h => h.2.1⟩
      · simp only [hj, Bool.false_eq_true, if_false]
        exact ⟨nofun, fun ⟨_, h, hi⟩ => by cases h; exact absurd hi hj⟩

theorem decodePort_eq_ok_iff_encode {c : Config} {w : Byte} {i : Instr} :
    decodePort c w = .ok i ↔ i.isPort = true ∧ i.WF c = true ∧ encode i = w := by
  rw [decodePort_eq_ok_iff, decode_eq_ok_iff]
  constructor
  · rintro ⟨h7, rfl, hwf⟩
    exact ⟨by simpa [encode_bit7] using h7, hwf, rfl⟩
  · rintro ⟨hp, hwf, rfl⟩
    exact ⟨by simp [encode_bit7, hp], rfl, hwf⟩

theorem decodeInternal_encode {i : Instr} (hi : i.isPort = false) : decodeInternal (encode i) = .ok i := by
  have h7 : (encode i)[7] = true := by rw [encode_bit7, hi]; rfl
  have h := decode_encode i
  rw [decode, if_pos h7] at h
  rw [decodeInternal, if_pos h7, h]

/-- Settles O2: the port reads the table on the words with bit 7 clear, which are those of the port operations. -/
theorem portAcceptsExactlyItsTable : Obligations.PortAcceptsExactlyItsTable := fun _ _ _ => decodePort_eq_ok_iff_encode

/-- A reserved word (R77) is none of the words the port accepts. -/
theorem decodePort_reserved {c : Config} {w : Byte}
    (h : w[7] = true ∨ w.extractLsb' 4 3 = 6 ∨ w.extractLsb' 4 3 = 7 ∨ w.extractLsb' 1 3 ≠ 0 ∨
      (w.extractLsb' 4 3 ≠ 1 ∧ w[0] = true) ∨ (w = 0x50 ∧ c.optTakeErrors = false)) :
    ∃ why, decodePort c w = .error why := by
  cases hd : decodePort c w with
  | error why => exact ⟨why, rfl⟩
  | ok i =>
    obtain ⟨hp, hwf, rfl⟩ := decodePort_eq_ok_iff_encode.1 hd
    exfalso
    cases i with
    | init | readNextFrame | hasErrors | clearErrors => simp [encode] at h
    | tick l => cases l <;> simp [encode] at h
    | takeErrors =>
      have ho : c.optTakeErrors = true := hwf
      simp [encode, ho] at h
    | _ => cases hp

end Sys2Proof

namespace Sys2Proof.Machine

variable {s : State} {w : Byte} {rest : List Request} {i : Instr}

/-! ## The step -/

theorem step_port_of_ok (hp : s.pending = .port w :: rest) (hd : decodePort s.cfg w = .ok i) :
    step s = exec i { s with pending := rest } := by
  simp [step, fetch, hp, hd]

theorem step_port_of_error {why : Reject} (hp : s.pending = .port w :: rest) (hd : decodePort s.cfg w = .error why) :
    step s = .refused (.reservedWord w why) := by
  simp [step, fetch, hp, hd]

theorem step_internal_of_ok {ops : MicroOperands} (hp : s.pending = .internal w ops :: rest)
    (hd : decodeInternal w = .ok i) : step s = exec i { s with pending := rest, uop := ops } := by
  simp [step, fetch, hp, hd]

theorem step_of_nothing_pending (hp : s.pending = []) : step s = .next s := by
  simp [step, fetch, hp]

theorem run_of_step_refused {x : Refusal} (h : step s = .refused x) (k : Nat) :
    Host.Core.run core (k + 1) s = .refused x := by
  have hstep : core.step s = .refused x := h
  simp [Host.Core.run, hstep]

/-- Settles O4. -/
theorem stepRunsPortCommand : Obligations.StepRunsPortCommand := fun _ _ _ _ => step_port_of_ok

/-- Settles O5: the word of an internal action decodes to it. -/
theorem stepRunsInternalAction : Obligations.StepRunsInternalAction := by
  rintro s w ops rest i hp hi rfl
  exact step_internal_of_ok hp (decodeInternal_encode hi)

/-- Settles O6: the port accepts no reserved word, and a refused step ends every run. -/
theorem reservedWordIsRefusedForGood : Obligations.ReservedWordIsRefusedForGood := by
  intro s w rest hp hres
  obtain ⟨why, hd⟩ := decodePort_reserved hres
  exact ⟨why, run_of_step_refused (step_port_of_error hp hd)⟩

/-- Settles O7. -/
theorem nothingPendingChangesNothing : Obligations.NothingPendingChangesNothing := fun _ => step_of_nothing_pending

/-- Settles O8: every operation is performed under the check of the configuration. -/
theorem illFormedConfigIsRefused : Obligations.IllFormedConfigIsRefused := by
  intro i s h
  cases i <;> exact if_neg h

/-! ## The pseudo-operations -/

theorem mem_ticksOf {n : Nat} {l : Level} (h : i ∈ ticksOf n l) : ∃ l, i = .tick l := ⟨l, (List.mem_replicate.1 h).2⟩

theorem mem_charOf {c : Config} {v : Byte} (h : i ∈ charOf c v) : ∃ l, i = .tick l := by
  simp only [charOf, List.mem_append, List.mem_flatMap] at h
  rcases h with h | ⟨_, _, h⟩ | h <;> exact mem_ticksOf h

theorem mem_charsOf {c : Config} {vs : List Byte} (h : i ∈ vs.flatMap (charOf c)) : ∃ l, i = .tick l := by
  obtain ⟨v, -, h⟩ := List.mem_flatMap.1 h
  exact mem_charOf h

theorem mem_frameOf {c : Config} {d g : Nat} {vs : List Byte} (h : i ∈ frameOf c d vs g) : ∃ l, i = .tick l := by
  simp only [frameOf, List.mem_append] at h
  rcases h with h | h | h | h
  · exact mem_ticksOf h
  · exact mem_ticksOf h
  · exact mem_charsOf h
  · exact mem_ticksOf h

/-- A pseudo-operation is ticks and nothing else (R83). -/
theorem mem_expand_of_pseudo {c : Config} {x : AsmLine} (hx : ∀ i, x ≠ .op i) (h : i ∈ x.expand c) :
    ∃ l, i = .tick l := by
  cases x with
  | op j => exact absurd rfl (hx j)
  | ticks n l => exact mem_ticksOf h
  | level l n => exact mem_ticksOf h
  | idle n => exact mem_ticksOf h
  | brk b => exact mem_ticksOf h
  | char v => exact mem_charOf h
  | chars vs => exact mem_charsOf h
  | frame d vs g => exact mem_frameOf h

/-- Settles O9: a pseudo-operation is ticks, and the port of every core accepts TICK. -/
theorem pseudoOperationsArePortOperations : Obligations.PseudoOperationsArePortOperations := by
  intro c x hx
  constructor
  · intro i hi
    obtain ⟨l, rfl⟩ := mem_expand_of_pseudo hx hi
    rfl
  · intro r hr
    obtain ⟨i, hi, rfl⟩ := List.mem_map.1 hr
    rw [List.flatMap_singleton] at hi
    obtain ⟨l, rfl⟩ := mem_expand_of_pseudo hx hi
    exact ⟨_, _, rfl, decodePort_eq_ok_iff_encode.2 ⟨rfl, rfl, rfl⟩, hi⟩

/-! ## The line image of a character -/

/-- The bit periods of a character, `TPB` ticks each (R71). -/
theorem charOf_eq_flatMap (c : Config) (v : Byte) :
    charOf c v = (List.range 10).flatMap fun k => ticksOf c.tpb (charLevel v k) := by
  simp [charOf, List.range_succ, charLevel]

theorem flatMap_replicate_eq_map {α : Type} (f : Nat → α) (n m : Nat) :
    ((List.range n).flatMap fun k => List.replicate m (f k)) = (List.range (n * m)).map fun j => f (j / m) := by
  induction n with
  | zero => simp
  | succ n ih =>
    have hlast : (List.range m).map (fun i => f ((n * m + i) / m)) = List.replicate m (f n) := by
      rw [List.eq_replicate_iff]
      refine ⟨by simp, fun b hb => ?_⟩
      obtain ⟨i, hi, rfl⟩ := List.mem_map.1 hb
      have him := List.mem_range.1 hi
      rw [Nat.mul_comm n m, Nat.mul_add_div (by omega), Nat.div_eq_of_lt him, Nat.add_zero]
    rw [List.range_succ, List.flatMap_append, ih, List.flatMap_singleton, Nat.succ_mul, List.range_add, List.map_append,
      List.map_map]
    exact congrArg _ hlast.symm

theorem charOf_eq_map (c : Config) (v : Byte) :
    charOf c v = (List.range (10 * c.tpb)).map fun j => .tick (charLevel v (j / c.tpb)) := by
  rw [charOf_eq_flatMap]
  exact flatMap_replicate_eq_map (fun k => Instr.tick (charLevel v k)) 10 c.tpb

/-- Settles O10: ten bit periods of `TPB` ticks are the ticks `0` to `10 * TPB - 1`, tick `j` in period `j / TPB`. -/
theorem charExpansionIsTheCharacter : Obligations.CharExpansionIsTheCharacter := by
  intro c v
  rw [charOf_eq_map]
  exact ⟨by simp, fun j hj => by simp [hj]⟩

end Sys2Proof.Machine
end

section
/-! SUPPORT. The result of one operation, for the setup call, the Tick Source, the waits, the callback and its
continuations, the queue, the consumer and the errors (R100 to R172). -/

namespace Sys2Proof.Machine

variable {s : State} {l : Level}

/-! ## Reset -/

theorem queued_powerOn (c : Config) (n : Nat) : queued (State.powerOn c n) = [] := by
  simp [queued, queueLength, State.powerOn]

theorem slots_powerOn_count {c : Config} {n : Nat} {f : FrameBuffer} (h : f ∈ (State.powerOn c n).slots) :
    f.count = 0 := by
  rw [List.eq_of_mem_replicate h]; rfl

/-- Settles O11: the fields by computation, the queue because head and tail meet. -/
theorem powerOnValues : Obligations.PowerOnValues :=
  ⟨fun c n => ⟨rfl, rfl, rfl, rfl, rfl, rfl, rfl, rfl, queued_powerOn c n, rfl, rfl, rfl, rfl,
    fun _ => slots_powerOn_count⟩, Config.default, 0, rfl⟩

/-- Settles O12. -/
theorem initRestoresPowerOn : Obligations.InitRestoresPowerOn := fun _ => exec_init

/-! ## The Tick Source -/

/-- Settles O13. -/
theorem tsNowReturnsCounter : Obligations.TsNowReturnsCounter := fun _ => exec_tsNow

/-- Settles O14. -/
theorem tsResetPeriodRestartsCountdown : Obligations.TsResetPeriodRestartsCountdown := fun _ => exec_tsResetPeriod

/-- Settles O15: the offset operand decides. -/
theorem tsScheduleNextSetsCountdown : Obligations.TsScheduleNextSetsCountdown := by
  intro s hw
  rw [exec_tsScheduleNext hw]
  refine ⟨fun hk => ?_, fun hk => ?_⟩
  · rw [offsetOperand_of_pos hk]; rfl
  · have hzero : offsetOperand s = .error .zeroOffset := if_neg (by omega)
    rw [hzero]; rfl

theorem exec_tick_of_counts (hw : s.cfg.WF) (l : Level) (hp : s.phase = .idle) (hc : 2 ≤ s.cd) :
    exec (.tick l) s = .next { s with now := nowAfter 1 s, cd := s.cd - 1, result := .nothing } :=
  (exec_tick hw l).trans (tick_of_counts (s := returning .nothing s) l hp hc)

theorem exec_tick_of_fires (hw : s.cfg.WF) (l : Level) (hp : s.phase = .idle) (hc : s.cd = 1) :
    exec (.tick l) s = callback l { s with now := nowAfter 1 s, cd := s.cfg.tpb, result := .nothing } :=
  (exec_tick hw l).trans (tick_of_fires (s := returning .nothing s) l hp hc)

theorem exec_tick_of_wait (hw : s.cfg.WF) (l : Level) (hp : s.phase = .wait) :
    exec (.tick l) s = waitPoll l { s with now := nowAfter 1 s, result := .nothing } :=
  (exec_tick hw l).trans (tick_of_wait (s := returning .nothing s) l hp)

/-- Settles O16. -/
theorem tickFollowsPhaseAndCountdown : Obligations.TickFollowsPhaseAndCountdown := fun l _ hw =>
  ⟨exec_tick_of_counts hw l, exec_tick_of_fires hw l, exec_tick_of_wait hw l⟩

/-! ## Waits -/

theorem maxOperand_of_ge (h : 2 ^ s.cfg.tickW ≤ s.uop.max) : maxOperand s = .error .boundTooLarge :=
  if_neg (Nat.not_lt.2 h)

theorem maxOperand_of_zero (h : s.uop.max = 0) : maxOperand s = .ok 0 := by
  rw [maxOperand_of_lt (h ▸ Nat.two_pow_pos _), h]

/-- How a wait for `level` run by itself starts (R111): the bound operand decides, and then the line. -/
theorem wait_starts {level off : Level} (hoff : off ≠ level) (s : State) :
    let r := withOperand (maxOperand s) fun m =>
      waitWith (continueAt s.uop.cont s.uop.line) level m s.uop.cont s.uop.line (returning .nothing s)
    let t := { s with wBase := s.now, cd := s.cfg.tpb, result := OpResult.nothing }
    (s.uop.max < 2 ^ s.cfg.tickW → s.uop.max ≠ 0 → s.uop.line = off →
      r = .next { t with phase := .wait, wLevel := level, wMax := s.uop.max, wCont := s.uop.cont }) ∧
    (s.uop.max < 2 ^ s.cfg.tickW → s.uop.max ≠ 0 → s.uop.line = level → r = continueAt s.uop.cont level .ok t) ∧
    (s.uop.max = 0 → r = continueAt s.uop.cont s.uop.line .fail t) ∧
    (2 ^ s.cfg.tickW ≤ s.uop.max → r = .refused .boundTooLarge) := by
  refine ⟨fun hlt hm hl => ?_, fun hlt hm hl => ?_, fun hm => ?_, fun hge => ?_⟩
  · rw [maxOperand_of_lt hlt, hl]; exact waitWith_of_opens hm hoff
  · rw [maxOperand_of_lt hlt, hl]; exact waitWith_of_level hm rfl
  · rw [maxOperand_of_zero hm]; rfl
  · rw [maxOperand_of_ge hge]; rfl

/-- Settles O19. -/
theorem waitLowStarts : Obligations.WaitLowStarts := by
  intro s hw
  rw [exec_waitLow hw]
  exact wait_starts (off := .high) (by decide) s

/-- Settles O20. -/
theorem waitHighStarts : Obligations.WaitHighStarts := by
  intro s hw
  rw [exec_waitHigh hw]
  exact wait_starts (off := .low) (by decide) s

/-- An epilogue with nothing to hand over, or under an open wait, changes nothing. -/
theorem epilogue_of_handoffIdle (h : HandoffIdle s) : epilogue s = .next s := by
  cases hp : s.phase with
  | idle => rw [epilogue_of_idle hp, handoff_of_idle h]
  | wait => exact epilogue_of_wait hp

/-- Settles O21: the three ways a poll goes; the start-bit wait's continuation ignores the outcome. -/
theorem waitPollStaysOrEnds : Obligations.WaitPollStaysOrEnds := by
  intro s hw
  have hbound := waitPoll_of_bound (l := s.uop.line) (s := returning .nothing s)
  have hlevel := waitPoll_of_level (l := s.uop.line) (s := returning .nothing s)
  have hstays := waitPoll_of_stays (l := s.uop.line) (s := returning .nothing s)
  rw [exec_waitPoll hw]
  refine ⟨hstays, hbound, hlevel, fun hend hcont hfull => ?_⟩
  by_cases hb : s.wMax ≤ elapsed s
  · rw [hbound hb, returning_wCont, hcont]
    exact epilogue_of_handoffIdle (.inl hfull)
  · rw [hlevel (Nat.lt_of_not_le hb) (hend.resolve_left hb), returning_wCont, hcont]
    exact epilogue_of_handoffIdle (.inl hfull)

/-! ## The callback and DetectBreak -/

theorem sample_of_detectBreak (hr : s.rxState = .detectBreak) : sample l s = dbSample l s := by
  simp [sample, hr]

theorem callback_of_sample {t : State} (h : sample l s = .next t) : callback l s = epilogue t := by
  rw [callback, h, andThen_next]

/-- Settles O22: one sample rule a clause. -/
theorem callbackDispatchesTheSample : Obligations.CallbackDispatchesTheSample := by
  intro s hw
  rw [exec_callback hw]
  have hdata (hr : s.rxState = .readData) (h1 : 1 ≤ s.bitCnt) (h8 : s.bitCnt ≤ 8) :
      callback s.uop.line (returning .nothing s) = epilogue (rdDataSample s.uop.line (returning .nothing s)) :=
    callback_of_sample (sample_of_dataBit hr h1 h8)
  refine ⟨fun hr => ?_, fun hr hb => ?_, hdata, fun hr hb => ?_, fun hr h1 h8 hidle => ?_⟩
  · exact congrArg (andThen · epilogue) (sample_of_detectBreak hr)
  · exact congrArg (andThen · epilogue) (sample_of_startBit hr hb)
  · exact congrArg (andThen · epilogue) (sample_of_stopBit hr hb)
  · exact (hdata hr h1 h8).trans (epilogue_of_handoffIdle hidle)

theorem dbSample_high (s : State) : dbSample .high s = .next { s with lowCnt := 0 } := rfl

theorem dbSample_low_of_short (h : s.lowCnt + 1 ≠ s.cfg.brkN) :
    dbSample .low s = .next { s with lowCnt := s.lowCnt + 1 } := if_neg h

theorem dbSample_low_of_break (h : s.lowCnt + 1 = s.cfg.brkN) :
    dbSample .low s = waitHigh s.cfg.tBrk .brkHigh .low { s with lowCnt := s.cfg.brkN } := by
  rw [waitHigh_brkHigh, ← h]; exact if_pos h

/-- WAIT_HIGH with a bound, at a tick whose line is low, opens the wait (R113). -/
theorem waitHigh_of_low {max : Nat} (cont : WaitCont) (hm : max ≠ 0) (s : State) :
    waitHigh max cont .low s = .next { s with
      wBase := s.now, cd := s.cfg.tpb, phase := .wait, wLevel := .high, wMax := max, wCont := cont } :=
  waitWith_of_opens hm (by decide)

/-- Settles O24: the sample rule in `DetectBreak`, and the three ways its sample goes. -/
theorem dbSampleCountsLows : Obligations.DbSampleCountsLows := by
  refine ⟨rfl, fun _ _ _ => rfl, fun s hw => ?_⟩
  have hexec := exec_dbSample hw
  have hbreak (hl : s.uop.line = .low) (hn : s.lowCnt + 1 = s.cfg.brkN) :
      exec .dbSample s = waitHigh s.cfg.tBrk .brkHigh .low { s with lowCnt := s.cfg.brkN, result := .nothing } := by
    rw [hexec, hl]; exact dbSample_low_of_break hn
  refine ⟨fun hr => ?_, fun hl => ?_, fun hl hn => ?_, hbreak, fun hl hn hm => ?_⟩
  · exact exec_callback_of_sample hw hexec (sample_of_detectBreak hr)
  · rw [hexec, hl]; rfl
  · rw [hexec, hl]; exact dbSample_low_of_short hn
  · exact (hbreak hl hn).trans (waitHigh_of_low .brkHigh hm _)

/-- Settles O25. -/
theorem dbEntryResetsCounters : Obligations.DbEntryResetsCounters := fun _ => exec_dbEntry

theorem enterReadData_of_opens {f : FrameBuffer} (hf : s.slots[s.head]? = some f) (hm : s.cfg.tStart ≠ 0) :
    enterReadData .high s = .next { entered f s with
      wBase := s.now, cd := s.cfg.tpb, phase := .wait, wLevel := .low, wMax := s.cfg.tStart, wCont := .startLow } := by
  rw [enterReadData_of_some _ hf, waitWith_of_opens hm (by decide)]; rfl

theorem enterReadData_of_aligns {f : FrameBuffer} (hf : s.slots[s.head]? = some f)
    (h : s.cfg.tStart = 0 ∨ l = .low) :
    enterReadData l s = .next { entered f s with wBase := s.now, cd := s.cfg.kMid } := by
  rw [enterReadData_of_some _ hf]
  by_cases hm : s.cfg.tStart = 0
  · rw [hm, waitWith_of_zero]; rfl
  · rw [waitWith_of_level hm (h.resolve_left hm)]; rfl

/-- Settles O26: both operations are the entry, whose wait opens on a high line and otherwise aligns at once. -/
theorem rdEntryStartsTheSearch : Obligations.RdEntryStartsTheSearch := by
  intro i s f hi hw hf
  have hexec : exec i s = enterReadData s.uop.line (returning .nothing s) := by
    rcases hi with rfl | rfl
    · exact exec_rdEntry hw
    · exact exec_dbBreakEnd hw
  rw [hexec]
  refine ⟨fun hm hl => ?_, fun h => ?_⟩
  · rw [hl]; exact enterReadData_of_opens (s := returning .nothing s) hf hm
  · exact enterReadData_of_aligns (s := returning .nothing s) hf h

/-! ## ReadData -/

/-- Settles O27. -/
theorem rdAlignSchedulesMidBit : Obligations.RdAlignSchedulesMidBit := fun _ => exec_rdAlign

theorem rdIfsResolve_of_short (h : s.bytesRead < s.cfg.fmin) :
    rdIfsResolve .fail s = .next (failFrame .frameShort s) := if_pos h

theorem rdIfsResolve_of_commits (h : s.cfg.fmin ≤ s.bytesRead) :
    rdIfsResolve .fail s = .next (enterDetectBreak (qCommit s)) := if_neg (Nat.not_lt.2 h)

theorem rdIfsResolve_of_long {f : FrameBuffer} (hf : s.slots[s.head]? = some f) (h : f.count = s.cfg.fmax) :
    rdIfsResolve .ok s = .next (failFrame .frameLong s) := (withSlot_of_some hf).trans (if_pos h)

theorem rdIfsResolve_of_continues {f : FrameBuffer} (hf : s.slots[s.head]? = some f) (h : f.count ≠ s.cfg.fmax) :
    rdIfsResolve .ok s = .next (scheduleNextIn s.cfg.kMid s) := (withSlot_of_some hf).trans (if_neg h)

theorem headCount_of_some {f : FrameBuffer} (hf : s.slots[s.head]? = some f) : headCount s = f.count := by
  simp [headCount, hf]

theorem exists_head_slot (h : s.head < s.slots.length) : ∃ f, s.slots[s.head]? = some f ∧ headCount s = f.count :=
  have hf := List.getElem?_eq_getElem h
  ⟨_, hf, headCount_of_some hf⟩

theorem qCommit_returning (r : OpResult) (s : State) : qCommit (returning r s) = returning r (qCommit s) := by
  by_cases h : nextIndex s.cfg s.head = s.tail
  · rw [qCommit_of_full h, qCommit_of_full (s := returning r s) h]; rfl
  · rw [qCommit_of_free h, qCommit_of_free (s := returning r s) h]; rfl

/-- Settles O31: the four ways RD_IFS_RESOLVE goes, the last two by the count of the head slot. -/
theorem rdIfsResolveEndsOrContinues : Obligations.RdIfsResolveEndsOrContinues := by
  intro s hw
  rw [exec_rdIfsResolve hw]
  refine ⟨fun hres hlt => ?_, fun hres hle => ?_, fun hres hc hs => ?_, fun hres hc hs => ?_⟩
  · rw [hres]; exact rdIfsResolve_of_short (s := returning .nothing s) hlt
  · rw [hres, rdIfsResolve_of_commits (s := returning .nothing s) hle, qCommit_returning]; rfl
  · obtain ⟨f, hf, hcount⟩ := exists_head_slot hs
    rw [hres]; exact rdIfsResolve_of_long (s := returning .nothing s) hf (hcount ▸ hc)
  · obtain ⟨f, hf, hcount⟩ := exists_head_slot hs
    rw [hres]; exact rdIfsResolve_of_continues (s := returning .nothing s) hf (hcount ▸ hc)

/-! ## Queue and Mailbox -/

/-- Settles O37: the two ways a commit goes. -/
theorem qCommitAdvancesHead : Obligations.QCommitAdvancesHead := by
  intro s hw
  rw [exec_qCommit hw]
  refine ⟨fun h => ?_, fun h => ?_⟩
  · rw [qCommit_of_free (s := returning .nothing s) h]; rfl
  · rw [qCommit_of_full (s := returning .nothing s) h, h]; rfl

/-- Settles O38: the two ways a handoff goes. -/
theorem handoffMovesOldestFrame : Obligations.HandoffMovesOldestFrame := by
  intro s hw
  rw [exec_handoff hw]
  exact ⟨fun f hm hq hf => handoff_of_moves (s := returning .nothing s) hm hq hf,
    handoff_of_idle (s := returning .nothing s)⟩

/-! ## Consumer and errors -/

/-- Settles O41: the two ways the read goes. -/
theorem readNextFrameClaimsTheMailbox : Obligations.ReadNextFrameClaimsTheMailbox := fun _ hw =>
  ⟨exec_readNextFrame_of_full hw, exec_readNextFrame_of_empty hw⟩

/-- Settles O43: HAS_ERRORS runs on the state CLEAR_ERRORS left. -/
theorem clearErrorsResetsTheFlag : Obligations.ClearErrorsResetsTheFlag := by
  intro s hw
  have hclear : exec .clearErrors s = .next { s with err := false, result := .nothing } := exec_clearErrors hw
  refine ⟨hclear, ?_⟩
  rw [hclear, andThen_next]
  exact exec_hasErrors_eq_returning (s := { s with err := false, result := .nothing }) hw

/-- Settles O44: the option decides. -/
theorem takeErrorsFetchesAndClears : Obligations.TakeErrorsFetchesAndClears := fun s hw =>
  ⟨exec_takeErrors_of_option hw, fun ho => by rw [exec_takeErrors hw, ho]; rfl⟩

/-- Settles O47. -/
theorem raiseFrameErrorSetsTheFlag : Obligations.RaiseFrameErrorSetsTheFlag := fun c _ hw => exec_raiseFrameError hw c

end Sys2Proof.Machine
end

section
/-! SUPPORT. The Frame Queue as a list (R32, R35, R150, R152): the frames on a stretch of the ring, the distance of its
two indices, and what a commit, a handoff and a write of the head slot make of the list. -/

namespace Sys2Proof.Config.WF

/-! ## The constraints of a well-formed configuration (R7) -/

variable {c : Config} (h : c.WF)
include h

theorem one_le_tpb : 1 ≤ c.tpb := by obtain ⟨-, -, h, -⟩ := h; exact h
theorem two_le_qcap : 2 ≤ c.qcap := by obtain ⟨-, -, -, h, -⟩ := h; exact h
theorem fmin_le_fmax : c.fmin ≤ c.fmax := by obtain ⟨-, -, -, -, h, -⟩ := h; exact h
theorem one_le_fmin : 1 ≤ c.fmin := by obtain ⟨-, -, -, -, -, h, -⟩ := h; exact h
theorem one_le_brkN : 1 ≤ c.brkN := by obtain ⟨-, -, -, -, -, -, h, -⟩ := h; exact h
theorem tBrk_lt : c.tBrk < 2 ^ c.tickW := by obtain ⟨-, -, -, -, -, -, -, h, -⟩ := h; exact h
theorem tStart_lt : c.tStart < 2 ^ c.tickW := by obtain ⟨-, -, -, -, -, -, -, -, h, -⟩ := h; exact h
theorem tIfs_lt : c.tIfs < 2 ^ c.tickW := by obtain ⟨-, -, -, -, -, -, -, -, -, h, -⟩ := h; exact h
theorem one_le_kMid : 1 ≤ c.kMid := by obtain ⟨-, -, -, -, -, -, -, -, -, -, h, -⟩ := h; exact h

end Sys2Proof.Config.WF

namespace Sys2Proof.Machine

variable {s t : State}

/-! ## A stretch of the ring -/

/-- The `n` frames of a ring of `q` slots from slot `i` on. -/
def slotsFrom (slots : List FrameBuffer) (q i n : Nat) : List FrameBuffer :=
  (List.range n).filterMap fun k => slots[(i + k) % q]?

theorem queued_eq_slotsFrom (s : State) : queued s = slotsFrom s.slots s.cfg.qcap s.tail (queueLength s) := rfl

variable {slots : List FrameBuffer} {q i j n : Nat} {f g : FrameBuffer}

@[simp] theorem slotsFrom_zero : slotsFrom slots q i 0 = [] := rfl

theorem slotsFrom_mod : slotsFrom slots q (i % q) n = slotsFrom slots q i n := by
  simp [slotsFrom]

theorem slotsFrom_succ_first (h : slots[i % q]? = some f) :
    slotsFrom slots q i (n + 1) = f :: slotsFrom slots q (i + 1) n := by
  simp only [slotsFrom, List.range_succ_eq_map, List.filterMap_cons, Nat.add_zero, h, List.filterMap_map]
  simp [Nat.add_assoc, Nat.add_comm 1]

theorem slotsFrom_succ_last (h : slots[(i + n) % q]? = some f) :
    slotsFrom slots q i (n + 1) = slotsFrom slots q i n ++ [f] := by
  simp [slotsFrom, List.range_succ, h]

theorem slotsFrom_set (h : ∀ k < n, (i + k) % q ≠ j) : slotsFrom (slots.set j f) q i n = slotsFrom slots q i n := by
  apply List.filterMap_congr
  intro k hk
  rw [List.getElem?_set_ne (h k (List.mem_range.1 hk)).symm]

theorem length_slotsFrom (hl : slots.length = q) (hq : 0 < q) : (slotsFrom slots q i n).length = n := by
  induction n with
  | zero => rfl
  | succ n ih =>
    have hlt : (i + n) % q < slots.length := by rw [hl]; exact Nat.mod_lt _ hq
    rw [slotsFrom_succ_last (List.getElem?_eq_getElem hlt), List.length_append, ih]
    rfl

/-! ## The two indices -/

theorem nextIndex_spec {c : Config} (h : i < c.qcap) :
    (nextIndex c i = i + 1 ∧ i + 1 < c.qcap) ∨ (nextIndex c i = 0 ∧ i + 1 = c.qcap) := by
  rcases Nat.lt_or_eq_of_le (Nat.succ_le_of_lt h) with h | h
  · exact .inl ⟨Nat.mod_eq_of_lt h, h⟩
  · exact .inr ⟨by rw [nextIndex, ← Nat.succ_eq_add_one, h, Nat.mod_self], h⟩

/-- The queue's length is the way from the tail to the head, around the ring where it must (R32). -/
theorem queueLength_spec (hh : s.head < s.cfg.qcap) (ht : s.tail < s.cfg.qcap) :
    queueLength s < s.cfg.qcap ∧
      (s.tail + queueLength s = s.head ∨ s.tail + queueLength s = s.head + s.cfg.qcap) := by
  have hlt : queueLength s < s.cfg.qcap := Nat.mod_lt _ (by omega)
  refine ⟨hlt, ?_⟩
  unfold queueLength
  by_cases h : s.tail ≤ s.head
  · rw [show s.head + (s.cfg.qcap - s.tail) = s.head - s.tail + s.cfg.qcap by omega, Nat.add_mod_right,
      Nat.mod_eq_of_lt (by omega)]
    omega
  · rw [Nat.mod_eq_of_lt (by omega)]
    omega

/-- The slot the head points at ends the stretch of the queue. -/
theorem tail_add_queueLength_mod (hh : s.head < s.cfg.qcap) (ht : s.tail < s.cfg.qcap) :
    (s.tail + queueLength s) % s.cfg.qcap = s.head := by
  rcases (queueLength_spec hh ht).2 with h | h
  · rw [h, Nat.mod_eq_of_lt hh]
  · rw [h, Nat.add_mod_right, Nat.mod_eq_of_lt hh]

/-- No queued frame stands in the head slot (R32). -/
theorem queued_slot_ne_head (hh : s.head < s.cfg.qcap) (ht : s.tail < s.cfg.qcap) {k : Nat} (hk : k < queueLength s) :
    (s.tail + k) % s.cfg.qcap ≠ s.head := by
  have hspec := queueLength_spec hh ht
  by_cases h : s.tail + k < s.cfg.qcap
  · rw [Nat.mod_eq_of_lt h]; omega
  · rw [Nat.mod_eq_sub_mod (by omega), Nat.mod_eq_of_lt (by omega)]; omega

/-! ## What the queue holds -/

namespace StorageShape

variable (hs : StorageShape s)
include hs

theorem head_slot : ∃ f, s.slots[s.head]? = some f ∧ headCount s = f.count ∧ f.Shaped s.cfg := by
  obtain ⟨f, hf, hc⟩ := exists_head_slot (s := s) (by rw [hs.slots]; exact hs.head)
  exact ⟨f, hf, hc, hs.frames f (List.mem_of_getElem? hf)⟩

theorem tail_slot : ∃ f, s.slots[s.tail]? = some f :=
  ⟨_, List.getElem?_eq_getElem (by rw [hs.slots]; exact hs.tail)⟩

theorem length_queued : (queued s).length = queueLength s :=
  length_slotsFrom hs.slots (Nat.zero_lt_of_lt hs.head)

theorem length_queued_lt : (queued s).length < s.cfg.qcap := by
  rw [hs.length_queued]; exact (queueLength_spec hs.head hs.tail).1

theorem queued_eq_nil_iff : queued s = [] ↔ s.head = s.tail := by
  rw [← List.length_eq_zero_iff, hs.length_queued]
  have hspec := queueLength_spec hs.head hs.tail
  have hhead := hs.head
  have htail := hs.tail
  omega

theorem full_iff : (queued s).length = s.cfg.qcap - 1 ↔ nextIndex s.cfg s.head = s.tail := by
  rw [hs.length_queued]
  have hspec := queueLength_spec hs.head hs.tail
  have hnext := nextIndex_spec hs.head
  have htail := hs.tail
  omega

/-- Writing the head slot leaves the queue as it was. -/
theorem queued_of_head_write (hslots : t.slots = s.slots.set s.head f) (hcfg : t.cfg = s.cfg) (hhead : t.head = s.head)
    (htail : t.tail = s.tail) : queued t = queued s := by
  have hlen : queueLength t = queueLength s := by rw [queueLength, queueLength, hcfg, hhead, htail]
  rw [queued_eq_slotsFrom, queued_eq_slotsFrom, hslots, hcfg, htail, hlen]
  exact slotsFrom_set fun k => queued_slot_ne_head hs.head hs.tail

/-- A commit to a queue with room appends the head slot's frame (R150). -/
theorem queued_qCommit_of_free (hf : s.slots[s.head]? = some f) (h : nextIndex s.cfg s.head ≠ s.tail) :
    queued (qCommit s) = queued s ++ [f] := by
  have hspec := queueLength_spec hs.head hs.tail
  have hnext := nextIndex_spec hs.head
  have htail := hs.tail
  rw [qCommit_of_free h]
  have hlen : queueLength { s with head := nextIndex s.cfg s.head } = queueLength s + 1 := by
    have := queueLength_spec (s := { s with head := nextIndex s.cfg s.head }) (by dsimp only; omega) hs.tail
    dsimp only at this
    omega
  rw [queued_eq_slotsFrom, hlen]
  exact slotsFrom_succ_last (by rw [tail_add_queueLength_mod hs.head hs.tail, hf])

/-- A commit to a full queue drops the oldest frame and appends the head slot's frame (R150). -/
theorem queued_qCommit_of_full (hq : 2 ≤ s.cfg.qcap) (hf : s.slots[s.head]? = some f)
    (h : nextIndex s.cfg s.head = s.tail) : queued (qCommit s) = (queued s).tail ++ [f] := by
  obtain ⟨g, hg⟩ := hs.tail_slot
  obtain ⟨m, hm⟩ : ∃ m, queueLength s = m + 1 :=
    ⟨s.cfg.qcap - 2, by have := hs.full_iff.2 h; rw [hs.length_queued] at this; omega⟩
  have hspec := queueLength_spec hs.head hs.tail
  have hnext := nextIndex_spec hs.tail
  have hlen : queueLength (qCommit s) = m + 1 := by
    have hhead := hs.head
    have htail := hs.tail
    have hnext' := nextIndex_spec hs.head
    rw [qCommit_of_full h]
    have := queueLength_spec
      (s := { s with head := s.tail, tail := nextIndex s.cfg s.tail, err := true, trace := s.trace ++ [.overrun] })
      hs.tail (nextIndex_lt hq _)
    dsimp only at this
    omega
  have hold : queued s = g :: slotsFrom s.slots s.cfg.qcap (s.tail + 1) m := by
    rw [queued_eq_slotsFrom, hm]
    exact slotsFrom_succ_first (by rwa [Nat.mod_eq_of_lt hs.tail])
  rw [queued_eq_slotsFrom, hlen, hold, List.tail_cons, qCommit_of_full h]
  refine slotsFrom_mod.trans (slotsFrom_succ_last ?_)
  rw [Nat.add_right_comm, Nat.add_assoc, ← hm, tail_add_queueLength_mod hs.head hs.tail, hf]

/-- A commit appends the head slot's frame, dropping the oldest queued frame when the queue is full (R150). -/
theorem queued_qCommit (hq : 2 ≤ s.cfg.qcap) (hf : s.slots[s.head]? = some f) :
    queued (qCommit s) = (if (queued s).length = s.cfg.qcap - 1 then (queued s).tail else queued s) ++ [f] := by
  split
  next h => exact hs.queued_qCommit_of_full hq hf (hs.full_iff.1 h)
  next h => exact hs.queued_qCommit_of_free hf (mt hs.full_iff.2 h)

/-- A handoff that moves a frame takes the oldest (R152). -/
theorem queued_of_handoff_moves (hg : s.slots[s.tail]? = some g) (hne : s.head ≠ s.tail)
    (hslots : t.slots = s.slots) (hcfg : t.cfg = s.cfg) (hhead : t.head = s.head)
    (htail : t.tail = nextIndex s.cfg s.tail) : queued s = g :: queued t := by
  have hspec := queueLength_spec hs.head hs.tail
  have hh := hs.head
  have hlen : queueLength s = queueLength t + 1 := by
    have hnext := nextIndex_spec hs.tail
    have := queueLength_spec (s := t) (by rw [hhead, hcfg]; exact hs.head)
      (by rw [htail, hcfg]; exact Nat.mod_lt _ (by omega))
    rw [hhead, htail, hcfg] at this
    omega
  rw [queued_eq_slotsFrom, queued_eq_slotsFrom, hlen, hslots, hcfg, htail,
    slotsFrom_succ_first (by rwa [Nat.mod_eq_of_lt hs.tail])]
  exact congrArg _ slotsFrom_mod.symm

end StorageShape

/-- All HANDOFF does to Mailbox and queue on storage of the configuration's shape (R152). -/
theorem handoff_effect (hs : StorageShape s) :
    ∃ t, handoff s = .next t ∧
      ((HandoffIdle s ∧ t = s) ∨
        ∃ g, s.mbFlag = false ∧ s.slots[s.tail]? = some g ∧ queued s = g :: queued t ∧
          t = { s with mbFrame := g, tail := nextIndex s.cfg s.tail, mbFlag := true }) := by
  by_cases hidle : HandoffIdle s
  · exact ⟨s, handoff_of_idle hidle, .inl ⟨hidle, rfl⟩⟩
  · obtain ⟨hm, hne⟩ := not_or.1 hidle
    obtain ⟨g, hg⟩ := hs.tail_slot
    have hm := Bool.eq_false_iff.2 hm
    exact ⟨_, handoff_of_moves hm hne hg, .inr ⟨g, hm, hg, hs.queued_of_handoff_moves hg hne rfl rfl rfl rfl, rfl⟩⟩

/-- HANDOFF by itself does it on the state whose result is `nothing`, which holds the same queue. -/
theorem exec_handoff_effect (hw : s.cfg.WF) (hs : StorageShape s) :
    ∃ t, exec .handoff s = .next t ∧
      (s.mbFlag = true → queued t = queued s ∧ t.mbFrame = s.mbFrame) ∧
      (s.mbFlag = false → queued s = [] → t.mbFlag = false) ∧
      (∀ g rest, s.mbFlag = false → queued s = g :: rest → queued t = rest ∧ t.mbFrame = g ∧ t.mbFlag = true) := by
  obtain ⟨t, ht, h⟩ := handoff_effect (s := returning .nothing s) ⟨hs.slots, hs.frames, hs.mailbox, hs.head, hs.tail⟩
  have hqueued : queued (returning .nothing s) = queued s := rfl
  refine ⟨t, (exec_handoff hw).trans ht, ?_⟩
  rcases h with ⟨hidle, rfl⟩ | ⟨g, hm, -, hq, rfl⟩
  · refine ⟨fun _ => ⟨rfl, rfl⟩, fun hm _ => hm, fun g rest hm hq => ?_⟩
    have hnil := hs.queued_eq_nil_iff.2 (hidle.resolve_left (by simp [hm]))
    simp [hnil] at hq
  · rw [hqueued] at hq
    refine ⟨fun hfull => absurd hfull (by simpa using hm), fun _ hnil => by simp [hnil] at hq, fun g' rest _ hq' => ?_⟩
    obtain ⟨rfl, rfl⟩ := List.cons.inj (hq.symm.trans hq')
    exact ⟨rfl, rfl, rfl⟩

/-- Settles O39: the queue is a stretch of the ring, to which a commit adds the head slot and of which a handoff takes
the first. -/
theorem queueIsFifo : Obligations.QueueIsFifo := fun _ _ hw hs hf =>
  ⟨hs.length_queued_lt, ⟨_, exec_qCommit hw, by
    rw [qCommit_returning]; exact hs.queued_qCommit hw.two_le_qcap hf⟩, exec_handoff_effect hw hs⟩

end Sys2Proof.Machine
end

section
/-! SUPPORT. The invariant of a run. It is split into what the storage satisfies, the ranges of the registers, and the
five modes of the producer (two states idle, three open waits); each action completes from the modes in which a run
calls it and leaves the invariant, and a tick is a chain of these. -/

namespace Sys2Proof.Machine

variable {s t : State} {l : Level} {f : FrameBuffer}

/-! ## The parts of the invariant -/

/-- The part of the invariant that speaks of the configuration, the storage and the inputs (R9, R23, R24). -/
structure Stored (s : State) : Prop where
  config : s.cfg.WF
  storage : StorageShape s
  queuedFrames : ∀ f ∈ queued s, s.cfg.fmin ≤ f.count
  mailboxFrame : s.mbFlag = true → s.cfg.fmin ≤ s.mbFrame.count
  portOnly : ∀ r ∈ s.pending, ∃ w, r = Request.port w

/-- What a state entry leaves of the byte counters and the assembled byte (R123, R130). -/
structure Entry (s : State) : Prop where
  bitCnt : s.bitCnt = 0
  bytesRead : s.bytesRead = 0
  acc : s.acc = 0x00
  mask : s.mask = 0x01

/-- `ReadData` with a frame on the way: the two byte counts agree (R30). -/
structure Reading (s : State) : Prop where
  rxState : s.rxState = .readData
  lowCnt : s.lowCnt = 0
  bytesRead : s.bytesRead = headCount s

/-- The modes of the producer between operations: the two states idle, and the three open waits (R34, R116). -/
inductive Mode (s : State) : Prop where
  | detecting (hp : s.phase = .idle) (hr : s.rxState = .detectBreak) (he : Entry s) (hlow : s.lowCnt < s.cfg.brkN)
  | breakWait (hp : s.phase = .wait) (hr : s.rxState = .detectBreak) (he : Entry s) (hc : s.wCont = .brkHigh)
      (hl : s.wLevel = .high) (hm : s.wMax = s.cfg.tBrk) (hlow : s.lowCnt = s.cfg.brkN)
  | reading (hp : s.phase = .idle) (hr : Reading s) (hroom : headCount s < s.cfg.fmax)
  | startWait (hp : s.phase = .wait) (hr : Reading s) (hc : s.wCont = .startLow) (hl : s.wLevel = .low)
      (hm : s.wMax = s.cfg.tStart) (hbit : s.bitCnt = 0) (hbytes : s.bytesRead = 0) (hroom : headCount s < s.cfg.fmax)
  | ifsWait (hp : s.phase = .wait) (hr : Reading s) (hc : s.wCont = .ifsLow) (hl : s.wLevel = .low)
      (hm : s.wMax = s.cfg.tIfs) (hbit : s.bitCnt = 0) (hbytes : 1 ≤ s.bytesRead)

/-- The invariant but for the bound of an open wait, which the tick that ends the wait reaches. -/
structure Sound (s : State) : Prop where
  stored : Stored s
  legal : LegalValues s
  mode : Mode s

theorem RunInv.stored (h : RunInv s) : Stored s :=
  ⟨h.config, h.storage, h.queuedFrames, h.mailboxFrame, h.portOnly⟩

theorem RunInv.mode (h : RunInv s) : Mode s := by
  cases hp : s.phase with
  | idle =>
    cases hr : s.rxState with
    | detectBreak =>
      obtain ⟨hbit, hbytes, hacc, hmask, hlow⟩ := h.detecting hr
      exact .detecting hp hr ⟨hbit, hbytes, hacc, hmask⟩ (hlow hp)
    | readData =>
      obtain ⟨hlow, hbytes⟩ := h.assembling hr
      exact .reading hp ⟨hr, hlow, hbytes⟩ (h.room hr (by simp [hp]))
  | wait =>
    obtain ⟨⟨hr, hc, hl, hm, hlow⟩ | ⟨hr, hc, hl, hm, hbit, hbytes⟩ | ⟨hr, hc, hl, hm, hbit, hbytes⟩, -⟩ := h.waiting hp
    · obtain ⟨hbit, hbytes, hacc, hmask, -⟩ := h.detecting hr
      exact .breakWait hp hr ⟨hbit, hbytes, hacc, hmask⟩ hc hl hm hlow
    · obtain ⟨hlow, hcount⟩ := h.assembling hr
      exact .startWait hp ⟨hr, hlow, hcount⟩ hc hl hm hbit hbytes (h.room hr (by simp [hc]))
    · obtain ⟨hlow, hcount⟩ := h.assembling hr
      exact .ifsWait hp ⟨hr, hlow, hcount⟩ hc hl hm hbit hbytes

theorem RunInv.sound (h : RunInv s) : Sound s := ⟨h.stored, h.legal, h.mode⟩

theorem Sound.runInv (h : Sound s) (hw : s.phase = .wait → elapsed s < s.wMax) : RunInv s := by
  obtain ⟨⟨hcfg, hst, hq, hmb, hpend⟩, hlegal, hmode⟩ := h
  cases hmode with
  | detecting hp hr he hlow =>
    exact ⟨hcfg, hst, hlegal, by simp [hp], fun _ => ⟨he.bitCnt, he.bytesRead, he.acc, he.mask, fun _ => hlow⟩,
      by simp [hr], by simp [hr], hq, hmb, hpend⟩
  | breakWait hp hr he hc hl hm hlow =>
    exact ⟨hcfg, hst, hlegal, fun _ => ⟨.inl ⟨hr, hc, hl, hm, hlow⟩, hw hp⟩,
      fun _ => ⟨he.bitCnt, he.bytesRead, he.acc, he.mask, by simp [hp]⟩, by simp [hr], by simp [hr], hq, hmb, hpend⟩
  | reading hp hr hroom =>
    exact ⟨hcfg, hst, hlegal, by simp [hp], by simp [hr.rxState], fun _ => ⟨hr.lowCnt, hr.bytesRead⟩,
      fun _ _ => hroom, hq, hmb, hpend⟩
  | startWait hp hr hc hl hm hbit hbytes hroom =>
    exact ⟨hcfg, hst, hlegal, fun _ => ⟨.inr (.inl ⟨hr.rxState, hc, hl, hm, hbit, hbytes⟩), hw hp⟩,
      by simp [hr.rxState], fun _ => ⟨hr.lowCnt, hr.bytesRead⟩, fun _ _ => hroom, hq, hmb, hpend⟩
  | ifsWait hp hr hc hl hm hbit hbytes =>
    exact ⟨hcfg, hst, hlegal, fun _ => ⟨.inr (.inr ⟨hr.rxState, hc, hl, hm, hbit, hbytes⟩), hw hp⟩,
      by simp [hr.rxState], fun _ => ⟨hr.lowCnt, hr.bytesRead⟩, fun _ h => absurd ⟨hp, hc⟩ h, hq, hmb, hpend⟩

/-! ## Writes the parts do not see -/

/-- What the storage's part of the invariant reads. -/
def storageView (s : State) : Config × List FrameBuffer × Nat × Nat × Bool × FrameBuffer × List Request :=
  (s.cfg, s.slots, s.head, s.tail, s.mbFlag, s.mbFrame, s.pending)

theorem Stored.congr (h : Stored s) (hv : storageView t = storageView s) : Stored t := by
  simp only [storageView, Prod.mk.injEq] at hv
  obtain ⟨hcfg, hslots, hhead, htail, hflag, hframe, hpend⟩ := hv
  obtain ⟨config, ⟨slots, frames, mailbox, head, tail⟩, queuedFrames, mailboxFrame, portOnly⟩ := h
  have hq : queued t = queued s := by simp only [queued, queueLength, hcfg, hslots, hhead, htail]
  refine ⟨?_, ⟨?_, ?_, ?_, ?_, ?_⟩, ?_, ?_, ?_⟩ <;> simp only [hq, hcfg, hslots, hhead, htail, hflag, hframe, hpend] <;>
    assumption

/-- What the modes read: the configuration and the registers of the producer but the countdown and the wait's base. -/
structure ModeView where
  cfg : Config
  phase : Phase
  rxState : RxState
  lowCnt : Nat
  bytesRead : Nat
  bitCnt : Nat
  acc : Byte
  mask : Byte
  wCont : WaitCont
  wLevel : Level
  wMax : Nat
  headCount : Nat

def modeView (s : State) : ModeView :=
  ⟨s.cfg, s.phase, s.rxState, s.lowCnt, s.bytesRead, s.bitCnt, s.acc, s.mask, s.wCont, s.wLevel, s.wMax, headCount s⟩

theorem Mode.congr (h : Mode s) (hv : modeView t = modeView s) : Mode t := by
  simp only [modeView, ModeView.mk.injEq] at hv
  obtain ⟨ecfg, ephase, erx, elow, ebytes, ebit, eacc, emask, econt, elevel, emax, ecount⟩ := hv
  have entry (he : Entry s) : Entry t :=
    ⟨ebit.trans he.bitCnt, ebytes.trans he.bytesRead, eacc.trans he.acc, emask.trans he.mask⟩
  have reading (hr : Reading s) : Reading t :=
    ⟨erx.trans hr.rxState, elow.trans hr.lowCnt, by rw [ebytes, ecount, hr.bytesRead]⟩
  cases h with
  | detecting hp hr he hlow =>
    exact .detecting (ephase.trans hp) (erx.trans hr) (entry he) (by rwa [elow, ecfg])
  | breakWait hp hr he hc hl hm hlow =>
    exact .breakWait (ephase.trans hp) (erx.trans hr) (entry he) (econt.trans hc) (elevel.trans hl)
      (by rw [emax, ecfg, hm]) (by rw [elow, ecfg, hlow])
  | reading hp hr hroom => exact .reading (ephase.trans hp) (reading hr) (by rwa [ecount, ecfg])
  | startWait hp hr hc hl hm hbit hbytes hroom =>
    exact .startWait (ephase.trans hp) (reading hr) (econt.trans hc) (elevel.trans hl) (by rw [emax, ecfg, hm])
      (ebit.trans hbit) (ebytes.trans hbytes) (by rwa [ecount, ecfg])
  | ifsWait hp hr hc hl hm hbit hbytes =>
    exact .ifsWait (ephase.trans hp) (reading hr) (econt.trans hc) (elevel.trans hl) (by rw [emax, ecfg, hm])
      (ebit.trans hbit) (by rwa [ebytes])

/-- The Mailbox, the tail and the model's own fields, but not the inputs, belong to no mode. -/
theorem Sound.of_shared (h : Sound s) (hst : Stored t)
    (ht : t = { s with
      tail := t.tail, mbFlag := t.mbFlag, mbFrame := t.mbFrame, err := t.err, pending := t.pending, uop := t.uop,
      result := t.result, trace := t.trace }) : Sound t := by
  refine ⟨hst, ?_, h.mode.congr ?_⟩
  · rw [ht]; exact { h.legal with }
  · rw [ht]; rfl

theorem RunInv.of_shared (h : RunInv s) (hst : Stored t)
    (ht : t = { s with
      tail := t.tail, mbFlag := t.mbFlag, mbFrame := t.mbFrame, err := t.err, pending := t.pending, uop := t.uop,
      result := t.result, trace := t.trace }) : RunInv t := by
  refine (h.sound.of_shared hst ht).runInv ?_
  rw [ht]
  exact fun hp => (h.waiting hp).2

/-! ## The storage's writes -/

theorem headCount_of_head_write (hst : StorageShape s) (hslots : t.slots = s.slots.set s.head f)
    (hhead : t.head = s.head) : headCount t = f.count := by
  apply headCount_of_some
  rw [hslots, hhead, List.getElem?_set_self (by rw [hst.slots]; exact hst.head)]

/-- A Frame Buffer of the right shape in the head slot keeps the storage's part. -/
theorem Stored.head_write (h : Stored s) (hf : f.Shaped s.cfg)
    (ht : storageView t = storageView { s with slots := s.slots.set s.head f }) : Stored t := by
  refine Stored.congr (s := { s with slots := s.slots.set s.head f }) ?_ ht
  obtain ⟨config, ⟨slots, frames, mailbox, head, tail⟩, queuedFrames, mailboxFrame, portOnly⟩ := h
  have hq : queued { s with slots := s.slots.set s.head f } = queued s :=
    StorageShape.queued_of_head_write ⟨slots, frames, mailbox, head, tail⟩ rfl rfl rfl rfl
  refine ⟨config, ⟨by simpa using slots, fun g hg => ?_, mailbox, head, tail⟩, hq ▸ queuedFrames, mailboxFrame,
    portOnly⟩
  rcases List.mem_or_eq_of_mem_set hg with hg | rfl
  · exact frames g hg
  · exact hf

/-- A commit of a frame that is long enough keeps the storage's part. -/
theorem Stored.qCommit (h : Stored s) (hlen : s.cfg.fmin ≤ headCount s) : Stored (qCommit s) := by
  obtain ⟨f, hf, hcount, -⟩ := h.storage.head_slot
  have hqcap := h.config.two_le_qcap
  have hqueued : ∀ g ∈ queued (Machine.qCommit s), s.cfg.fmin ≤ g.count := by
    rw [h.storage.queued_qCommit hqcap hf]
    intro g hg
    rcases List.mem_append.1 hg with hg | hg
    · split at hg
      · exact h.queuedFrames g (List.mem_of_mem_tail hg)
      · exact h.queuedFrames g hg
    · rw [List.mem_singleton.1 hg, ← hcount]; exact hlen
  obtain ⟨config, ⟨slots, frames, mailbox, head, tail⟩, -, mailboxFrame, portOnly⟩ := h
  have hnext (i : Nat) : nextIndex s.cfg i < s.cfg.qcap := nextIndex_lt hqcap i
  by_cases hfull : nextIndex s.cfg s.head = s.tail
  · rw [qCommit_of_full hfull] at hqueued ⊢
    exact ⟨config, ⟨slots, frames, mailbox, tail, hnext _⟩, hqueued, mailboxFrame, portOnly⟩
  · rw [qCommit_of_free hfull] at hqueued ⊢
    exact ⟨config, ⟨slots, frames, mailbox, hnext _, tail⟩, hqueued, mailboxFrame, portOnly⟩

/-- A handoff keeps the storage's part: the frame it moves was queued. -/
theorem Stored.handoff_move {g : FrameBuffer} (h : Stored s) (hg : s.slots[s.tail]? = some g)
    (hq : queued s = g :: queued { s with mbFrame := g, tail := nextIndex s.cfg s.tail, mbFlag := true }) :
    Stored { s with mbFrame := g, tail := nextIndex s.cfg s.tail, mbFlag := true } := by
  obtain ⟨config, ⟨slots, frames, mailbox, head, tail⟩, queuedFrames, mailboxFrame, portOnly⟩ := h
  rw [hq] at queuedFrames
  obtain ⟨hmin, hrest⟩ := List.forall_mem_cons.1 queuedFrames
  exact ⟨config, ⟨slots, frames, frames g (List.mem_of_getElem? hg), head, nextIndex_lt config.two_le_qcap _⟩, hrest,
    fun _ => hmin, portOnly⟩

/-! ## The actions complete and leave the invariant -/

/-- The end of a callback has handed over: an empty Mailbox stands over an empty queue (R33). -/
def HandedOver (s : State) : Prop := s.phase = .idle → s.mbFlag = false → s.head = s.tail

theorem handoff_completes (h : RunInv s) :
    ∃ t, handoff s = .next t ∧ RunInv t ∧ HandedOver t := by
  obtain ⟨t, ht, ⟨hidle, rfl⟩ | ⟨g, hm, hg, hq, rfl⟩⟩ := handoff_effect h.storage
  · exact ⟨t, ht, h, fun _ hm => hidle.resolve_left (by simp [hm])⟩
  · exact ⟨_, ht, h.of_shared (h.stored.handoff_move hg hq) rfl, fun _ => nofun⟩

theorem epilogue_completes (h : RunInv s) : ∃ t, epilogue s = .next t ∧ RunInv t ∧ HandedOver t := by
  cases hp : s.phase with
  | idle => rw [epilogue_of_idle hp]; exact handoff_completes h
  | wait => exact ⟨s, epilogue_of_wait hp, h, fun hidle => by simp [hp] at hidle⟩

theorem epilogue_completes_after {r : Res} (h : ∃ t, r = .next t ∧ RunInv t) :
    ∃ t, andThen r epilogue = .next t ∧ RunInv t ∧ HandedOver t := by
  obtain ⟨u, rfl, hu⟩ := h
  exact epilogue_completes hu

/-- The return to DetectBreak restores the invariant from any registers in range (R123). -/
theorem runInv_enterDetectBreak (hst : Stored s) (hl : LegalValues s) (hp : s.phase = .idle) :
    RunInv (enterDetectBreak s) := by
  refine Sound.runInv ⟨hst.congr rfl, ?_, .detecting hp rfl ⟨rfl, rfl, rfl, rfl⟩ hst.config.one_le_brkN⟩ (by simp [hp])
  exact { hl with
    lowCnt := Nat.zero_le _, bytesRead := Nat.zero_le _, bitCnt := Nat.zero_le _, mask := .inl rfl }

theorem runInv_failFrame (c : Cause) (hst : Stored s) (hl : LegalValues s) (hp : s.phase = .idle) :
    RunInv (failFrame c s) :=
  runInv_enterDetectBreak (hst.congr rfl) { hl with } hp

/-- Starting a wait leaves the registers in range: the counter is, and the bound is below `2^TICK_W` (R111, R112). -/
theorem LegalValues.wait_opens {max : Nat} {level : Level} {cont : WaitCont} (hl : LegalValues s) (hw : s.cfg.WF)
    (hm : max < 2 ^ s.cfg.tickW) : LegalValues { s with
      wBase := s.now, cd := s.cfg.tpb, phase := .wait, wLevel := level, wMax := max, wCont := cont } :=
  { hl with wBase := hl.now, wMax := hm, cdPositive := hw.one_le_tpb, cdBound := Nat.le_max_left .. }

/-- A wait that starts is short of its bound (R111). -/
theorem elapsed_of_base_now (h : s.wBase = s.now) : elapsed s = 0 := by
  rw [elapsed, nowOf, h, wrapSub_self]

theorem enterReadData_completes (hst : Stored s) (hl : LegalValues s) (hp : s.phase = .idle) (l : Level) :
    ∃ t, enterReadData l s = .next t ∧ RunInv t := by
  obtain ⟨f, hf, -, hshaped⟩ := hst.storage.head_slot
  have hw := hst.config
  have hst' : Stored (entered f s) := hst.head_write (f := { f with count := 0 }) ⟨hshaped.1, Nat.zero_le _⟩ rfl
  have hcount : headCount (entered f s) = 0 :=
    headCount_of_head_write (f := { f with count := 0 }) hst.storage rfl rfl
  have hl' : LegalValues (entered f s) := { hl with
    lowCnt := Nat.zero_le _, bytesRead := Nat.zero_le _, bitCnt := Nat.zero_le _, mask := .inl rfl }
  have hroom : headCount (entered f s) < s.cfg.fmax := by
    have := hw.one_le_fmin; have := hw.fmin_le_fmax; omega
  have hreading : Reading (entered f s) := ⟨rfl, rfl, hcount.symm⟩
  by_cases hopen : s.cfg.tStart ≠ 0 ∧ l = .high
  · obtain ⟨hm, rfl⟩ := hopen
    refine ⟨_, enterReadData_of_opens hf hm, Sound.runInv ⟨hst'.congr rfl, hl'.wait_opens hw hw.tStart_lt,
      .startWait rfl { hreading with } rfl rfl rfl rfl rfl hroom⟩ fun _ => ?_⟩
    rw [elapsed_of_base_now rfl]
    exact Nat.pos_of_ne_zero hm
  · have halign : s.cfg.tStart = 0 ∨ l = .low := by
      cases l with
      | low => exact .inr rfl
      | high => exact .inl (by simpa using hopen)
    refine ⟨_, enterReadData_of_aligns hf halign, Sound.runInv ⟨hst'.congr rfl, ?_,
      .reading hp { hreading with } hroom⟩ (by simp [entered, hp])⟩
    exact { hl' with wBase := hl.now, cdPositive := hw.one_le_kMid, cdBound := Nat.le_max_right .. }

theorem rdIfsResolve_completes (hst : Stored s) (hl : LegalValues s) (hp : s.phase = .idle) (hr : Reading s)
    (r : WaitResult) : ∃ t, rdIfsResolve r s = .next t ∧ RunInv t := by
  obtain ⟨f, hf, hcount, -, hmax⟩ := hst.storage.head_slot
  cases r with
  | fail =>
    by_cases hshort : s.bytesRead < s.cfg.fmin
    · exact ⟨_, rdIfsResolve_of_short hshort, runInv_failFrame _ hst hl hp⟩
    · have hlen := Nat.le_of_not_lt hshort
      refine ⟨_, rdIfsResolve_of_commits hlen, ?_⟩
      have hst' := hst.qCommit (hr.bytesRead ▸ hlen)
      by_cases hfull : nextIndex s.cfg s.head = s.tail
      · rw [qCommit_of_full hfull] at hst' ⊢; exact runInv_enterDetectBreak hst' { hl with } hp
      · rw [qCommit_of_free hfull] at hst' ⊢; exact runInv_enterDetectBreak hst' { hl with } hp
  | ok =>
    by_cases hlong : f.count = s.cfg.fmax
    · exact ⟨_, rdIfsResolve_of_long hf hlong, runInv_failFrame _ hst hl hp⟩
    · have hroom : headCount s < s.cfg.fmax := by omega
      refine ⟨_, rdIfsResolve_of_continues hf hlong, Sound.runInv ⟨hst.congr rfl, ?_,
        .reading hp { hr with } hroom⟩ (by simp [hp])⟩
      exact { hl with cdPositive := hst.config.one_le_kMid, cdBound := Nat.le_max_right .. }

/-- The end of any of the three open waits (R115). -/
theorem continueAt_completes {c : WaitCont} (h : Sound s) (hp : s.phase = .wait) (hc : s.wCont = c) (l : Level)
    (r : WaitResult) : ∃ t, continueAt c l r { s with cd := s.cfg.tpb, phase := .idle } = .next t ∧ RunInv t := by
  obtain ⟨hst, hl, hmode⟩ := h
  have hw := hst.config
  have hst' : Stored { s with cd := s.cfg.tpb, phase := .idle } := hst.congr rfl
  have hl' : LegalValues { s with cd := s.cfg.tpb, phase := .idle } :=
    { hl with cdPositive := hw.one_le_tpb, cdBound := Nat.le_max_left .. }
  cases hmode with
  | detecting hidle | reading hidle => simp [hidle] at hp
  | breakWait _ _ _ hbrk =>
    cases hc.symm.trans hbrk
    exact enterReadData_completes hst' hl' rfl l
  | startWait _ hr hstart _ _ _ _ hroom =>
    cases hc.symm.trans hstart
    refine ⟨_, rfl, Sound.runInv ⟨hst'.congr rfl, ?_, .reading rfl { hr with } hroom⟩ nofun⟩
    exact { hl' with cdPositive := hw.one_le_kMid, cdBound := Nat.le_max_right .. }
  | ifsWait _ hr hifs =>
    cases hc.symm.trans hifs
    exact rdIfsResolve_completes hst' hl' rfl { hr with } r

theorem waitPoll_completes (h : Sound s) (hp : s.phase = .wait) (l : Level) :
    ∃ t, waitPoll l s = .next t ∧ RunInv t ∧ HandedOver t := by
  by_cases hb : s.wMax ≤ elapsed s
  · rw [waitPoll_of_bound hb]; exact epilogue_completes_after (continueAt_completes h hp rfl l .fail)
  · have hlt := Nat.lt_of_not_le hb
    by_cases hl : l = s.wLevel
    · rw [waitPoll_of_level hlt hl]; exact epilogue_completes_after (continueAt_completes h hp rfl l .ok)
    · refine ⟨_, waitPoll_of_stays hlt hl, Sound.runInv ⟨h.stored.congr rfl, ?_, h.mode.congr rfl⟩ fun _ => hlt,
        fun hidle => by simp [hp] at hidle⟩
      exact { h.legal with cdPositive := h.stored.config.one_le_tpb, cdBound := Nat.le_max_left .. }

/-! ## The samples complete and leave the invariant -/

/-- The break's wait with the bound 0 enters `ReadData` at once (R111, R124). -/
theorem waitHigh_brkHigh_of_zero (l : Level) (s : State) :
    waitHigh 0 .brkHigh l s = enterReadData l { s with wBase := s.now, cd := s.cfg.tpb } := rfl

/-- The inter-byte wait with the bound 0 resolves at once (R111, R135). -/
theorem waitLow_ifsLow_of_zero (l : Level) (s : State) :
    waitLow 0 .ifsLow l s = rdIfsResolve .fail { s with wBase := s.now, cd := s.cfg.tpb } := rfl

/-- A high stop sample's state before its wait: the byte is in the head slot, whose buffer was `f` (R134). -/
def appended (f : FrameBuffer) (s : State) : State :=
  { s with
    slots := s.slots.set s.head { count := f.count + 1, bytes := f.bytes.set f.count s.acc }
    bytesRead := s.bytesRead + 1, bitCnt := 0 }

theorem rdStopSample_eq_appended (hf : s.slots[s.head]? = some f) (hroom : f.count < f.bytes.length) :
    rdStopSample .high s = waitLow s.cfg.tIfs .ifsLow .high (appended f s) := rdStopSample_of_room hf hroom

theorem dbSample_completes (h : RunInv s) (hp : s.phase = .idle) (hr : s.rxState = .detectBreak) (l : Level) :
    ∃ t, dbSample l s = .next t ∧ RunInv t := by
  obtain ⟨hst, hl, hmode⟩ := h.sound
  have hw := hst.config
  cases hmode with
  | breakWait hwait | startWait hwait | ifsWait hwait => simp [hp] at hwait
  | reading _ hread => simp [hread.rxState] at hr
  | detecting _ _ he hlow =>
    cases l with
    | high =>
      refine ⟨_, dbSample_high s, Sound.runInv ⟨hst.congr rfl, { hl with lowCnt := Nat.zero_le _ },
        .detecting hp hr { he with } hw.one_le_brkN⟩ (by simp [hp])⟩
    | low =>
      by_cases hbreak : s.lowCnt + 1 = s.cfg.brkN
      · rw [dbSample_low_of_break hbreak]
        have hl' : LegalValues { s with lowCnt := s.cfg.brkN } := { hl with lowCnt := Nat.le_refl _ }
        by_cases hm : s.cfg.tBrk = 0
        · rw [hm, waitHigh_brkHigh_of_zero]
          exact enterReadData_completes (s := { s with lowCnt := s.cfg.brkN, wBase := s.now, cd := s.cfg.tpb })
            (hst.congr rfl) { hl' with
              wBase := hl.now, cdPositive := hw.one_le_tpb, cdBound := Nat.le_max_left .. } hp .low
        · refine ⟨_, waitHigh_of_low .brkHigh hm _, Sound.runInv ⟨hst.congr rfl, hl'.wait_opens hw hw.tBrk_lt,
            .breakWait rfl hr { he with } rfl rfl rfl rfl⟩ fun _ => ?_⟩
          rw [elapsed_of_base_now rfl]
          exact Nat.pos_of_ne_zero hm
      · have hlt : s.lowCnt + 1 < s.cfg.brkN := by omega
        exact ⟨_, dbSample_low_of_short hbreak, Sound.runInv ⟨hst.congr rfl, { hl with lowCnt := Nat.le_of_lt hlt },
          .detecting hp hr { he with } hlt⟩ (by simp [hp])⟩

theorem rdStartSample_completes (h : RunInv s) (hp : s.phase = .idle) (hr : Reading s)
    (hroom : headCount s < s.cfg.fmax) (l : Level) : ∃ t, rdStartSample l s = .next t ∧ RunInv t := by
  cases l with
  | high => exact ⟨_, rfl, runInv_failFrame _ h.stored h.legal hp⟩
  | low =>
    exact ⟨_, rfl, Sound.runInv ⟨h.stored.congr rfl, { h.legal with bitCnt := by simp, mask := .inl rfl },
      .reading hp { hr with } hroom⟩ (by simp [hp])⟩

theorem rdDataSample_keeps_runInv (h : RunInv s) (hp : s.phase = .idle) (hr : Reading s)
    (hroom : headCount s < s.cfg.fmax) (h1 : 1 ≤ s.bitCnt) (h8 : s.bitCnt ≤ 8) (l : Level) :
    RunInv (rdDataSample l s) := by
  have hmask : s.mask <<< 1 = 0x01#8 <<< s.bitCnt := by
    rw [h.legal.mask.resolve_right (by omega), ← BitVec.shiftLeft_add, Nat.sub_add_cancel h1]
  exact Sound.runInv ⟨h.stored.congr rfl, { h.legal with bitCnt := Nat.succ_le_succ h8, mask := .inl hmask },
    .reading hp { hr with } hroom⟩ (by simp [rdDataSample, hp])

theorem rdStopSample_completes (h : RunInv s) (hp : s.phase = .idle) (hr : Reading s)
    (hroom : headCount s < s.cfg.fmax) (hb : s.bitCnt = 9) (l : Level) :
    ∃ t, rdStopSample l s = .next t ∧ RunInv t := by
  cases l with
  | low => exact ⟨_, rfl, runInv_failFrame _ h.stored h.legal hp⟩
  | high =>
    have hw := h.config
    obtain ⟨f, hf, hcount, hbytes, -⟩ := h.storage.head_slot
    rw [hcount] at hroom
    rw [rdStopSample_eq_appended hf (hbytes ▸ hroom)]
    have hst : Stored (appended f s) :=
      h.stored.head_write (f := { count := f.count + 1, bytes := f.bytes.set f.count s.acc })
        ⟨by simpa using hbytes, hroom⟩ rfl
    have hcount' : headCount (appended f s) = f.count + 1 :=
      headCount_of_head_write (t := appended f s) (f := ⟨f.count + 1, f.bytes.set f.count s.acc⟩) h.storage rfl rfl
    have hread : Reading (appended f s) :=
      ⟨hr.rxState, hr.lowCnt, (congrArg (· + 1) (hr.bytesRead.trans hcount)).trans hcount'.symm⟩
    have hmask : s.mask = 0x00 := by rw [h.legal.mask.resolve_right (by omega), hb]; rfl
    have hl : LegalValues (appended f s) := { h.legal with
      bytesRead := hread.bytesRead ▸ hcount' ▸ hroom
      bitCnt := Nat.zero_le _
      mask := .inr ⟨rfl, hmask⟩ }
    by_cases hm : s.cfg.tIfs = 0
    · rw [hm, waitLow_ifsLow_of_zero]
      exact rdIfsResolve_completes (s := { appended f s with wBase := s.now, cd := s.cfg.tpb }) (hst.congr rfl)
        { hl with wBase := hl.now, cdPositive := hw.one_le_tpb, cdBound := Nat.le_max_left .. } hp { hread with } .fail
    · refine ⟨_, waitLow_of_high .ifsLow hm _, Sound.runInv ⟨hst.congr rfl, hl.wait_opens hw hw.tIfs_lt,
        .ifsWait rfl { hread with } rfl rfl rfl rfl (Nat.succ_le_succ (Nat.zero_le _))⟩ fun _ => ?_⟩
      rw [elapsed_of_base_now rfl]
      exact Nat.pos_of_ne_zero hm

theorem sample_completes (h : RunInv s) (hp : s.phase = .idle) (l : Level) :
    ∃ t, sample l s = .next t ∧ RunInv t := by
  cases h.mode with
  | breakWait hwait | startWait hwait | ifsWait hwait => simp [hp] at hwait
  | detecting _ hr => rw [sample_of_detectBreak hr]; exact dbSample_completes h hp hr l
  | reading _ hr hroom =>
    have h9 := h.legal.bitCnt
    by_cases h0 : s.bitCnt = 0
    · rw [sample_of_startBit hr.rxState h0]; exact rdStartSample_completes h hp hr hroom l
    · by_cases h8 : s.bitCnt ≤ 8
      · exact ⟨_, sample_of_dataBit hr.rxState (by omega) h8, rdDataSample_keeps_runInv h hp hr hroom (by omega) h8 l⟩
      · have hb : s.bitCnt = 9 := by omega
        rw [sample_of_stopBit hr.rxState hb]; exact rdStopSample_completes h hp hr hroom hb l

theorem callback_completes (h : RunInv s) (hp : s.phase = .idle) (l : Level) :
    ∃ t, callback l s = .next t ∧ RunInv t ∧ HandedOver t :=
  epilogue_completes_after (sample_completes h hp l)

/-! ## The operations of the port -/

/-- The counter's advance keeps everything but the bound of an open wait. -/
theorem sound_advanceNow (h : RunInv s) {cd : Nat} (h1 : 1 ≤ cd) (hmax : cd ≤ max s.cfg.tpb s.cfg.kMid) :
    Sound { advanceNow s with cd := cd } := by
  refine ⟨h.stored.congr rfl, ?_, h.mode.congr rfl⟩
  exact { h.legal with cdPositive := h1, cdBound := hmax, now := Nat.mod_lt _ (Nat.two_pow_pos _) }

theorem tick_completes (h : RunInv s) (l : Level) :
    ∃ t, tick l s = .next t ∧ RunInv t ∧ (s.phase = .wait ∨ s.cd = 1 → HandedOver t) := by
  have hcd := h.legal.cdPositive
  have hmax := h.legal.cdBound
  cases hp : s.phase with
  | wait =>
    obtain ⟨t, ht, hinv, hover⟩ := waitPoll_completes (sound_advanceNow h hcd hmax) hp l
    exact ⟨t, (tick_of_wait l hp).trans ht, hinv, fun _ => hover⟩
  | idle =>
    by_cases h1 : s.cd = 1
    · have hs := sound_advanceNow h h.config.one_le_tpb (Nat.le_max_left ..)
      obtain ⟨t, ht, hinv, hover⟩ := callback_completes (hs.runInv (by simp [hp])) hp l
      exact ⟨t, (tick_of_fires l hp h1).trans ht, hinv, fun _ => hover⟩
    · have hs := sound_advanceNow (cd := s.cd - 1) h (by omega) (by omega)
      exact ⟨_, tick_of_counts l hp (by omega), hs.runInv (by simp [hp]), fun hor => absurd hor (by simp [h1])⟩

theorem stored_powerOn {c : Config} (n : Nat) (hw : c.WF) : Stored (State.powerOn c n) := by
  have hpos : 0 < c.qcap := Nat.lt_of_lt_of_le Nat.two_pos hw.two_le_qcap
  have hempty : (FrameBuffer.empty c.fmax).Shaped c := ⟨List.length_replicate .., Nat.zero_le _⟩
  refine ⟨hw, ⟨List.length_replicate .., fun f hf => ?_, hempty, hpos, hpos⟩, ?_, nofun, nofun⟩
  · rw [List.eq_of_mem_replicate hf]; exact hempty
  · rw [queued_powerOn]; exact nofun

theorem runInv_powerOn {c : Config} {n : Nat} (hw : c.WF) (hn : n < 2 ^ c.tickW) : RunInv (State.powerOn c n) := by
  refine Sound.runInv ⟨stored_powerOn n hw, ?_, .detecting rfl rfl ⟨rfl, rfl, rfl, rfl⟩ hw.one_le_brkN⟩ nofun
  exact
    { lowCnt := Nat.zero_le _, bytesRead := Nat.zero_le _, bitCnt := Nat.zero_le _, mask := .inl rfl,
      cdPositive := hw.one_le_tpb, cdBound := Nat.le_max_left .., wBase := Nat.two_pow_pos _,
      wMax := Nat.two_pow_pos _, now := hn }

/-- Other inputs and outputs, with command words only, keep the invariant. -/
theorem RunInv.of_host (h : RunInv s) (hpend : ∀ r ∈ t.pending, ∃ w, r = Request.port w)
    (ht : t = { s with
      err := t.err, pending := t.pending, uop := t.uop, result := t.result, trace := t.trace }) : RunInv t := by
  have hst : Stored { s with pending := t.pending } :=
    ⟨h.config, ⟨h.storage.slots, h.storage.frames, h.storage.mailbox, h.storage.head, h.storage.tail⟩,
      h.queuedFrames, h.mailboxFrame, hpend⟩
  exact h.of_shared (hst.congr (by rw [ht]; rfl)) (by rw [ht])

theorem runInv_initCore (h : RunInv s) : RunInv (initCore (returning .nothing s)) :=
  (runInv_powerOn h.config h.legal.now).of_host h.portOnly rfl

theorem runInv_readNextFrame (h : RunInv s) : RunInv (readNextFrame s) := by
  cases hm : s.mbFlag with
  | false => rw [readNextFrame, if_neg (by simp [hm])]; exact h.of_host h.portOnly rfl
  | true =>
    rw [readNextFrame, if_pos hm]
    refine h.of_shared ⟨h.config, ?_, h.queuedFrames, nofun, h.portOnly⟩ rfl
    exact ⟨h.storage.slots, h.storage.frames, h.storage.mailbox, h.storage.head, h.storage.tail⟩

/-- Every operation the port can present completes and leaves the invariant (R12, R170). -/
theorem exec_port_completes {i : Instr} (h : RunInv s) (hi : i.isPort = true) (hwf : i.WF s.cfg = true) :
    ∃ t, exec i s = .next t ∧ RunInv t := by
  have hw := h.config
  have hnothing : RunInv (returning .nothing s) := h.of_host h.portOnly rfl
  cases i with
  | init => exact ⟨_, exec_init hw, runInv_initCore h⟩
  | tick l =>
    obtain ⟨t, ht, hinv, -⟩ := tick_completes hnothing l
    exact ⟨t, (exec_tick hw l).trans ht, hinv⟩
  | readNextFrame => exact ⟨_, exec_readNextFrame hw, runInv_readNextFrame hnothing⟩
  | hasErrors => exact ⟨_, exec_hasErrors hw, h.of_host h.portOnly rfl⟩
  | clearErrors => exact ⟨_, exec_clearErrors hw, h.of_host h.portOnly rfl⟩
  | takeErrors => exact ⟨_, exec_takeErrors_of_option hw hwf, h.of_host h.portOnly rfl⟩
  | _ => cases hi

/-! ## The obligations -/

/-- Settles O53. -/
theorem powerOnSatisfiesInv : Obligations.PowerOnSatisfiesInv := fun _ _ => runInv_powerOn

/-- Settles O54: in a run the next request is a command word; the port accepts only operations of the port, and each of
these leaves the invariant. -/
theorem stepKeepsInv : Obligations.StepKeepsInv := by
  intro s t h hstep
  rcases step_cases hstep with ⟨-, rfl⟩ | ⟨w, rest, i, hp, hd, e⟩ | ⟨w, ops, rest, i, hp, -, -⟩
  · exact h
  · obtain ⟨hi, hwf, -⟩ := decodePort_eq_ok_iff_encode.1 hd
    have hrest : RunInv { s with pending := rest } :=
      h.of_host (fun r hr => h.portOnly r (hp ▸ List.mem_cons_of_mem _ hr)) rfl
    obtain ⟨u, hu, hinv⟩ := exec_port_completes hrest hi hwf
    rw [hu] at e
    cases e
    exact hinv
  · obtain ⟨w', hw'⟩ := h.portOnly (.internal w ops) (by simp [hp])
    cases hw'

theorem step_completes_or_reserved (h : RunInv s) :
    (∃ t, step s = .next t) ∨ ∃ w why, step s = .refused (.reservedWord w why) := by
  match hp : s.pending with
  | [] => exact .inl ⟨s, step_of_nothing_pending hp⟩
  | .internal w ops :: rest =>
    obtain ⟨w', hw'⟩ := h.portOnly (.internal w ops) (by simp [hp])
    cases hw'
  | .port w :: rest =>
    cases hd : decodePort s.cfg w with
    | error why => exact .inr ⟨w, why, step_port_of_error hp hd⟩
    | ok i =>
      obtain ⟨hi, hwf, -⟩ := decodePort_eq_ok_iff_encode.1 hd
      have hrest : RunInv { s with pending := rest } :=
        h.of_host (fun r hr => h.portOnly r (hp ▸ List.mem_cons_of_mem _ hr)) rfl
      obtain ⟨t, ht, -⟩ := exec_port_completes hrest hi hwf
      exact .inl ⟨t, (step_port_of_ok hp hd).trans ht⟩

/-- Settles O55. -/
theorem nothingIsFatal : Obligations.NothingIsFatal := fun _ h =>
  ⟨fun _ hi hwf => (exec_port_completes h hi hwf).imp fun _ => And.left, step_completes_or_reserved h⟩

/-- Settles O56: the Mailbox frame of a run has the storage's shape and at least `FMIN` bytes. -/
theorem deliveredFrameIsWhole : Obligations.DeliveredFrameIsWhole := by
  intro s t n bs h he hres
  cases hm : s.mbFlag with
  | false => rw [exec_readNextFrame_of_empty h.config hm] at he; cases he; cases hres
  | true =>
    obtain ⟨hlen, hmax⟩ := h.storage.mailbox
    rw [exec_readNextFrame_of_full h.config hm] at he
    cases he
    cases hres
    exact ⟨h.mailboxFrame hm, hmax, by rw [List.length_take, hlen, Nat.min_eq_left hmax]⟩

/-- Settles O23: the callback, the poll and the tick complete, each ending with its handoff unless a wait is open. -/
theorem callbackCompletesHandedOver : Obligations.CallbackCompletesHandedOver := by
  intro s h
  have hw := h.config
  have hnothing : RunInv (returning .nothing s) := h.of_host h.portOnly rfl
  refine ⟨fun hp => ?_, fun hp => ?_, fun l hor => ?_⟩
  · obtain ⟨t, ht, -, hover⟩ := callback_completes hnothing hp s.uop.line
    exact ⟨t, (exec_callback hw).trans ht, hover⟩
  · obtain ⟨t, ht, -, hover⟩ := waitPoll_completes hnothing.sound hp s.uop.line
    exact ⟨t, (exec_waitPoll hw).trans ht, hover⟩
  · obtain ⟨t, ht, -, hover⟩ := tick_completes hnothing l
    exact ⟨t, (exec_tick hw l).trans ht, hover hor⟩

end Sys2Proof.Machine
end

section
/-! SUPPORT. What cannot be told apart. Two relations between states blur a part of them: the bytes beyond a Frame
Buffer's count (R36), and the origin of the Tick Source counter (R25). Both blur at most the slots, the Mailbox frame,
the counter and the base of a wait, so the walk through the operations is done once, for every relation that meets
`Blurs`, the rules about these four; and then each of the two relations meets them. -/

namespace Sys2Proof.Machine

/-! ## Relations that blur -/

/-- `s` with other values of what a relation may blur. -/
def patch (slots : List FrameBuffer) (mbFrame : FrameBuffer) (now wBase : Nat) (s : State) : State :=
  { s with slots := slots, mbFrame := mbFrame, now := now, wBase := wBase }

/-- What a relation may blur, with what decides how it is read. -/
def blurView (s : State) : List FrameBuffer × FrameBuffer × Nat × Nat × Config × Phase :=
  (s.slots, s.mbFrame, s.now, s.wBase, s.cfg, s.phase)

/-- A write that neither reads nor writes what a relation may blur. -/
structure Uniform (u : State → State) : Prop where
  patch_comm : ∀ slots mbFrame now wBase s,
    u (patch slots mbFrame now wBase s) = patch slots mbFrame now wBase (u s) := by intros; rfl
  view : ∀ s, blurView (u s) = blurView s := by intros; rfl

/-- The rules by which the operations cannot tell apart what `R` relates: one for each of their accesses to what `R`
may blur, and one for all other writes. -/
structure Blurs (R : State → State → Prop) : Prop where
  patched {s t : State} : R s t → ∃ slots mbFrame now wBase, t = patch slots mbFrame now wBase s
  write {s t : State} {u : State → State} : Uniform u → R s t → R (u s) (u t)
  /-- The clock (R101, R106, R111). -/
  elapsed_eq {s t : State} : R s t → s.phase = .wait → elapsed t = elapsed s
  advance {s t : State} : R s t → R (advanceNow s) (advanceNow t)
  snapshot {s t : State} : R s t → R { s with wBase := s.now } { t with wBase := t.now }
  opens {s t : State} : R s t → R { s with wBase := s.now, phase := .wait } { t with wBase := t.now, phase := .wait }
  closes {s t : State} : R s t → R { s with phase := .idle } { t with phase := .idle }
  /-- The storage (R130, R134, R152, R160). -/
  slot {s t : State} : R s t → ∀ i : Nat, Option.Rel FrameBuffer.SameValid s.slots[i]? t.slots[i]?
  mailbox {s t : State} : R s t → s.mbFrame.SameValid t.mbFrame
  clear {s t : State} {i : Nat} {f g : FrameBuffer} : R s t → s.slots[i]? = some f → t.slots[i]? = some g →
    R (setSlot i { f with count := 0 } s) (setSlot i { g with count := 0 } t)
  append {s t : State} {i : Nat} {f g : FrameBuffer} (b : Byte) : R s t → s.slots[i]? = some f → t.slots[i]? = some g →
    f.count < f.bytes.length →
    R (setSlot i { count := f.count + 1, bytes := f.bytes.set f.count b } s)
      (setSlot i { count := g.count + 1, bytes := g.bytes.set g.count b } t)
  move {s t : State} {i : Nat} {f g : FrameBuffer} : R s t → s.slots[i]? = some f → t.slots[i]? = some g →
    R { s with mbFrame := f } { t with mbFrame := g }
  /-- INIT (R200). -/
  init {s t : State} : R s t → R (initCore s) (initCore t)

variable {R : State → State → Prop} {s t : State} {l : Level} {f g : FrameBuffer}

theorem SameOutcome.andThen {r r' : Res} {k : State → Res} (h : SameOutcome R r r')
    (hk : ∀ s t, R s t → SameOutcome R (k s) (k t)) : SameOutcome R (andThen r k) (andThen r' k) := by
  cases r with
  | next s =>
    cases r' with
    | next t => exact hk s t h
    | fault | refused => exact False.elim h
  | fault f =>
    cases r' with
    | fault g => exact h
    | next | refused => exact False.elim h
  | refused x =>
    cases r' with
    | refused y => exact h
    | next | fault => exact False.elim h

theorem SameOutcome.withOperand {act act' : Nat → Res} (x : Except Refusal Nat)
    (hact : ∀ n, SameOutcome R (act n) (act' n)) :
    SameOutcome R (Machine.withOperand x act) (Machine.withOperand x act') := by
  cases x with
  | ok n => exact hact n
  | error e => exact rfl

/-! ## The branches of three operations that other proofs do not reach -/

theorem tick_of_zero (l : Level) (hp : s.phase = .idle) (hc : s.cd = 0) : tick l s = .fault .countdownZero := by
  simp [tick, hp, hc]

theorem sample_of_past_dataBits (hr : s.rxState = .readData) (hb : ¬s.bitCnt ≤ 8) : sample l s = rdStopSample l s := by
  have h0 : s.bitCnt ≠ 0 := by omega
  simp [sample, hr, h0, hb]

theorem handoff_of_pending (h : ¬HandoffIdle s) : handoff s = withSlot s s.tail fun f =>
    .next (setMbFlag { s with mbFrame := f, tail := nextIndex s.cfg s.tail }) := by
  obtain ⟨hm, hq⟩ := not_or.1 h
  exact if_pos ⟨Bool.eq_false_iff.2 hm, hq⟩

namespace Blurs

variable (hR : Blurs R)
include hR

/-! ## The actions of the producer -/

theorem withSlot_same {k k' : FrameBuffer → Res} (h : R s t) (i : Nat)
    (hk : ∀ f g, s.slots[i]? = some f → t.slots[i]? = some g → f.SameValid g → SameOutcome R (k f) (k' g)) :
    SameOutcome R (withSlot s i k) (withSlot t i k') := by
  have hslot := hR.slot h i
  cases hf : s.slots[i]? with
  | none =>
    rw [hf] at hslot
    cases hg : t.slots[i]? with
    | none => rw [withSlot_of_none hf, withSlot_of_none hg]; rfl
    | some g => rw [hg] at hslot; cases hslot
  | some f =>
    rw [hf] at hslot
    cases hg : t.slots[i]? with
    | none => rw [hg] at hslot; cases hslot
    | some g =>
      rw [hg] at hslot
      cases hslot with
      | some hv => rw [withSlot_of_some hf, withSlot_of_some hg]; exact hk f g hf hg hv

theorem waitWith_same {k : WaitResult → State → Res} (hk : ∀ r s t, R s t → SameOutcome R (k r s) (k r t))
    (level : Level) (max : Nat) (cont : WaitCont) (l : Level) (h : R s t) :
    SameOutcome R (waitWith k level max cont l s) (waitWith k level max cont l t) := by
  have hbase := hR.write (u := resetPeriodTimer) {} (hR.snapshot h)
  by_cases hm : max = 0
  · rw [hm, waitWith_of_zero, waitWith_of_zero]; exact hk _ _ _ hbase
  · by_cases hl : l = level
    · rw [waitWith_of_level hm hl, waitWith_of_level hm hl]; exact hk _ _ _ hbase
    · rw [waitWith_of_opens hm hl, waitWith_of_opens hm hl]
      exact hR.write (u := fun s => { s with cd := s.cfg.tpb, wLevel := level, wMax := max, wCont := cont }) {}
        (hR.opens h)

theorem qCommit_same (h : R s t) : R (qCommit s) (qCommit t) := by
  refine hR.write ⟨fun slots mbFrame now wBase s => ?_, fun s => ?_⟩ h
  · by_cases hf : nextIndex s.cfg s.head = s.tail
    · rw [qCommit_of_full hf, qCommit_of_full (s := patch slots mbFrame now wBase s) hf]; rfl
    · rw [qCommit_of_free hf, qCommit_of_free (s := patch slots mbFrame now wBase s) hf]; rfl
  · by_cases hf : nextIndex s.cfg s.head = s.tail
    · rw [qCommit_of_full hf]; rfl
    · rw [qCommit_of_free hf]; rfl

theorem failFrame_same (c : Cause) (h : R s t) : R (failFrame c s) (failFrame c t) := hR.write {} h

theorem rdAlign_same (r : WaitResult) (h : R s t) : SameOutcome R (rdAlign r s) (rdAlign r t) :=
  hR.write (u := fun s => scheduleNextIn s.cfg.kMid s) {} h

theorem enterReadData_same (l : Level) (h : R s t) : SameOutcome R (enterReadData l s) (enterReadData l t) := by
  have hreset := hR.write (u := fun s => { resetCounters s with rxState := .readData }) {} h
  obtain ⟨slots, mbFrame, now, wBase, rfl⟩ := hR.patched h
  exact hR.withSlot_same h s.head fun f g hf hg _ =>
    hR.waitWith_same (fun r _ _ => hR.rdAlign_same r) _ _ _ l (hR.clear hreset hf hg)

theorem rdIfsResolve_same (r : WaitResult) (h : R s t) : SameOutcome R (rdIfsResolve r s) (rdIfsResolve r t) := by
  obtain ⟨slots, mbFrame, now, wBase, rfl⟩ := hR.patched h
  cases r with
  | fail =>
    by_cases hshort : s.bytesRead < s.cfg.fmin
    · rw [rdIfsResolve_of_short hshort, rdIfsResolve_of_short (s := patch slots mbFrame now wBase s) hshort]
      exact hR.failFrame_same _ h
    · have hlen := Nat.le_of_not_lt hshort
      rw [rdIfsResolve_of_commits hlen, rdIfsResolve_of_commits (s := patch slots mbFrame now wBase s) hlen]
      exact hR.write (u := enterDetectBreak) {} (hR.qCommit_same h)
  | ok =>
    refine hR.withSlot_same h s.head fun f g _ _ hv => ?_
    have hcount : f.count = g.count := hv.1
    by_cases hlong : f.count = s.cfg.fmax
    · rw [if_pos hlong, if_pos (hcount ▸ hlong)]; exact hR.failFrame_same _ h
    · rw [if_neg hlong, if_neg (hcount ▸ hlong)]; exact hR.rdAlign_same .ok h

theorem continueAt_same (c : WaitCont) (l : Level) (r : WaitResult) (h : R s t) :
    SameOutcome R (continueAt c l r s) (continueAt c l r t) := by
  cases c with
  | brkHigh => exact hR.enterReadData_same l h
  | startLow => exact hR.rdAlign_same r h
  | ifsLow => exact hR.rdIfsResolve_same r h

theorem rdStartSample_same (l : Level) (h : R s t) : SameOutcome R (rdStartSample l s) (rdStartSample l t) := by
  cases l with
  | high => exact hR.failFrame_same _ h
  | low => exact hR.write (u := fun s => { s with acc := 0x00, mask := 0x01, bitCnt := 1 }) {} h

theorem rdDataSample_same (l : Level) (h : R s t) : R (rdDataSample l s) (rdDataSample l t) := hR.write {} h

theorem appendByte_same (b : Byte) (h : R s t) : SameOutcome R (appendByte b s) (appendByte b t) := by
  obtain ⟨slots, mbFrame, now, wBase, rfl⟩ := hR.patched h
  refine hR.withSlot_same h s.head fun f g hf hg hv => ?_
  obtain ⟨hcount, hlen, -⟩ := hv
  by_cases hroom : f.count < f.bytes.length
  · rw [if_pos hroom, if_pos (by omega)]; exact hR.append b h hf hg hroom
  · rw [if_neg hroom, if_neg (by omega)]; exact congrArg Fault.noByte hcount

theorem rdStopSample_same (l : Level) (h : R s t) : SameOutcome R (rdStopSample l s) (rdStopSample l t) := by
  cases l with
  | low => exact hR.failFrame_same _ h
  | high =>
    have hacc : t.acc = s.acc := by obtain ⟨slots, mbFrame, now, wBase, rfl⟩ := hR.patched h; rfl
    rw [rdStopSample, rdStopSample, hacc]
    refine (hR.appendByte_same s.acc h).andThen fun u v huv => ?_
    have hbytes := hR.write (u := fun s => { s with bytesRead := s.bytesRead + 1, bitCnt := 0 }) {} huv
    obtain ⟨slots, mbFrame, now, wBase, rfl⟩ := hR.patched huv
    exact hR.waitWith_same (fun r _ _ => hR.rdIfsResolve_same r) _ _ _ _ hbytes

theorem dbSample_same (l : Level) (h : R s t) : SameOutcome R (dbSample l s) (dbSample l t) := by
  cases l with
  | high => exact hR.write (u := fun s => { s with lowCnt := 0 }) {} h
  | low =>
    have hcounted := hR.write (u := fun s => { s with lowCnt := s.lowCnt + 1 }) {} h
    have hbroken := hR.write (u := fun s => { s with lowCnt := s.cfg.brkN }) {} h
    obtain ⟨slots, mbFrame, now, wBase, rfl⟩ := hR.patched h
    by_cases hb : s.lowCnt + 1 = s.cfg.brkN
    · rw [dbSample_low_of_break hb, dbSample_low_of_break (s := patch slots mbFrame now wBase s) hb]
      exact hR.waitWith_same (fun _ _ _ => hR.enterReadData_same _) _ _ _ _ hbroken
    · rw [dbSample_low_of_short hb, dbSample_low_of_short (s := patch slots mbFrame now wBase s) hb]
      exact hcounted

theorem handoff_same (h : R s t) : SameOutcome R (handoff s) (handoff t) := by
  obtain ⟨slots, mbFrame, now, wBase, rfl⟩ := hR.patched h
  by_cases hidle : HandoffIdle s
  · rw [handoff_of_idle hidle, handoff_of_idle (s := patch slots mbFrame now wBase s) hidle]; exact h
  · rw [handoff_of_pending hidle, handoff_of_pending (s := patch slots mbFrame now wBase s) hidle]
    exact hR.withSlot_same h s.tail fun f g hf hg _ =>
      hR.write (u := fun s => setMbFlag { s with tail := nextIndex s.cfg s.tail }) {} (hR.move h hf hg)

theorem epilogue_same (h : R s t) : SameOutcome R (epilogue s) (epilogue t) := by
  have hhand := hR.handoff_same h
  obtain ⟨slots, mbFrame, now, wBase, rfl⟩ := hR.patched h
  cases hp : s.phase with
  | idle => rwa [epilogue_of_idle hp, epilogue_of_idle (s := patch slots mbFrame now wBase s) hp]
  | wait => rw [epilogue_of_wait hp, epilogue_of_wait (s := patch slots mbFrame now wBase s) hp]; exact h

theorem waitPoll_same (l : Level) (h : R s t) (he : elapsed t = elapsed s) :
    SameOutcome R (waitPoll l s) (waitPoll l t) := by
  have htimer := hR.write (u := resetPeriodTimer) {} h
  obtain ⟨slots, mbFrame, now, wBase, rfl⟩ := hR.patched h
  have ends (r : WaitResult) := (hR.continueAt_same s.wCont l r (hR.closes htimer)).andThen fun _ _ => hR.epilogue_same
  by_cases hb : s.wMax ≤ elapsed s
  · rw [waitPoll_of_bound hb, waitPoll_of_bound (s := patch slots mbFrame now wBase s) (he ▸ hb)]; exact ends .fail
  · have hlt := Nat.lt_of_not_le hb
    by_cases hl : l = s.wLevel
    · rw [waitPoll_of_level hlt hl, waitPoll_of_level (s := patch slots mbFrame now wBase s) (he ▸ hlt) hl]
      exact ends .ok
    · rw [waitPoll_of_stays hlt hl, waitPoll_of_stays (s := patch slots mbFrame now wBase s) (he ▸ hlt) hl]
      exact htimer

theorem sample_same (l : Level) (h : R s t) : SameOutcome R (sample l s) (sample l t) := by
  have hdb := hR.dbSample_same l h
  have hstart := hR.rdStartSample_same l h
  have hdata := hR.rdDataSample_same l h
  have hstop := hR.rdStopSample_same l h
  obtain ⟨slots, mbFrame, now, wBase, rfl⟩ := hR.patched h
  cases hr : s.rxState with
  | detectBreak =>
    rwa [sample_of_detectBreak hr, sample_of_detectBreak (s := patch slots mbFrame now wBase s) hr]
  | readData =>
    by_cases h0 : s.bitCnt = 0
    · rwa [sample_of_startBit hr h0, sample_of_startBit (s := patch slots mbFrame now wBase s) hr h0]
    · have h1 : 1 ≤ s.bitCnt := by omega
      by_cases h8 : s.bitCnt ≤ 8
      · rw [sample_of_dataBit hr h1 h8, sample_of_dataBit (s := patch slots mbFrame now wBase s) hr h1 h8]; exact hdata
      · rwa [sample_of_past_dataBits hr h8, sample_of_past_dataBits (s := patch slots mbFrame now wBase s) hr h8]

theorem callback_same (l : Level) (h : R s t) : SameOutcome R (callback l s) (callback l t) :=
  (hR.sample_same l h).andThen fun _ _ => hR.epilogue_same

theorem tick_same (l : Level) (h : R s t) : SameOutcome R (tick l s) (tick l t) := by
  have hadv := hR.advance h
  have hfires := hR.write (u := fun s => { s with cd := s.cfg.tpb }) {} hadv
  have hcounts := hR.write (u := fun s => { s with cd := s.cd - 1 }) {} hadv
  obtain ⟨slots, mbFrame, now, wBase, rfl⟩ := hR.patched h
  cases hp : s.phase with
  | wait =>
    rw [tick_of_wait l hp, tick_of_wait (s := patch slots mbFrame now wBase s) l hp]
    exact hR.waitPoll_same l hadv (hR.elapsed_eq hadv hp)
  | idle =>
    by_cases h1 : s.cd = 1
    · rw [tick_of_fires l hp h1, tick_of_fires (s := patch slots mbFrame now wBase s) l hp h1]
      exact hR.callback_same l hfires
    · by_cases h2 : 2 ≤ s.cd
      · rw [tick_of_counts l hp h2, tick_of_counts (s := patch slots mbFrame now wBase s) l hp h2]
        exact hcounts
      · have h0 : s.cd = 0 := by omega
        rw [tick_of_zero l hp h0, tick_of_zero (s := patch slots mbFrame now wBase s) l hp h0]
        rfl

/-! ## Every operation -/

theorem consumer_same {i : Instr} (h : R s t) (hw : s.cfg.WF)
    (hi : i = .readNextFrame ∨ i = .hasErrors ∨ i = .clearErrors ∨ i = .takeErrors) :
    SameOutcome R (exec i s) (exec i t) := by
  have hmailbox := hR.mailbox h
  have hread (r : OpResult) := hR.write (u := fun s => clearMbFlag (returning r s)) {} h
  have hreturn (u : State → OpResult) (hu : ∀ a b c d s, u (patch a b c d s) = u s) :=
    hR.write (u := fun s => returning (u s) s) ⟨fun a b c d s => by rw [hu]; rfl, fun _ => rfl⟩ h
  have hclear := hR.write (u := fun s => clearErr (returning .nothing s)) {} h
  have htake := hR.write (u := fun s => takeErrors (returning .nothing s)) {} h
  obtain ⟨slots, mbFrame, now, wBase, rfl⟩ := hR.patched h
  have hwt : (patch slots mbFrame now wBase s).cfg.WF := hw
  rcases hi with rfl | rfl | rfl | rfl
  · cases hm : s.mbFlag with
    | false =>
      rw [exec_readNextFrame_of_empty hw hm, exec_readNextFrame_of_empty hwt hm]
      exact hreturn (fun _ => .noFrame) fun _ _ _ _ _ => rfl
    | true =>
      have hresult : frameResult s.mbFrame = frameResult mbFrame := by
        obtain ⟨hcount, -, hbytes⟩ := hmailbox
        exact congrArg₂ OpResult.frame hcount hbytes
      rw [exec_readNextFrame_of_full hw hm, exec_readNextFrame_of_full hwt hm, hresult]
      exact hread _
  · rw [exec_hasErrors_eq_returning hw, exec_hasErrors_eq_returning hwt]
    exact hreturn (fun s => .bit s.err) fun _ _ _ _ _ => rfl
  · rw [exec_clearErrors hw, exec_clearErrors hwt]; exact hclear
  · cases ho : s.cfg.optTakeErrors with
    | true => rw [exec_takeErrors_of_option hw ho, exec_takeErrors_of_option hwt ho]; exact htake
    | false =>
      rw [(takeErrorsFetchesAndClears s hw).2 ho, (takeErrorsFetchesAndClears _ hwt).2 ho]
      rfl

/-- No operation but TS_NOW can tell apart what `R` relates, if WAIT_POLL run by itself cannot (R114). -/
theorem exec_same {i : Instr} (h : R s t) (hnow : i ≠ .tsNow) (hpoll : i = .waitPoll → elapsed t = elapsed s) :
    SameOutcome R (exec i s) (exec i t) := by
  by_cases hw : s.cfg.WF
  case neg =>
    obtain ⟨slots, mbFrame, now, wBase, rfl⟩ := hR.patched h
    rw [illFormedConfigIsRefused i s hw, illFormedConfigIsRefused i (patch slots mbFrame now wBase s) hw]
    rfl
  have hconsumer := hR.consumer_same (i := i) h hw
  have h0 := hR.write (u := returning .nothing) {} h
  obtain ⟨slots, mbFrame, now, wBase, rfl⟩ := hR.patched h
  have hwt : (patch slots mbFrame now wBase s).cfg.WF := hw
  cases i with
  | readNextFrame | hasErrors | clearErrors | takeErrors => exact hconsumer (by simp)
  | init => rw [exec_init hw, exec_init hwt]; exact hR.init h0
  | tick l => rw [exec_tick hw, exec_tick hwt]; exact hR.tick_same l h0
  | callback => rw [exec_callback hw, exec_callback hwt]; exact hR.callback_same _ h0
  | dbSample => rw [exec_dbSample hw, exec_dbSample hwt]; exact hR.dbSample_same _ h0
  | rdEntry => rw [exec_rdEntry hw, exec_rdEntry hwt]; exact hR.enterReadData_same _ h0
  | rdAlign => rw [exec_rdAlign hw, exec_rdAlign hwt]; exact hR.rdAlign_same _ h0
  | rdStartSample => rw [exec_rdStartSample hw, exec_rdStartSample hwt]; exact hR.rdStartSample_same _ h0
  | rdDataSample => rw [exec_rdDataSample hw, exec_rdDataSample hwt]; exact hR.rdDataSample_same _ h0
  | rdStopSample => rw [exec_rdStopSample hw, exec_rdStopSample hwt]; exact hR.rdStopSample_same _ h0
  | rdIfsResolve => rw [exec_rdIfsResolve hw, exec_rdIfsResolve hwt]; exact hR.rdIfsResolve_same _ h0
  | dbEntry => rw [exec_dbEntry hw, exec_dbEntry hwt]; exact hR.write (u := enterDetectBreak) {} h0
  | dbBreakEnd => rw [exec_dbBreakEnd hw, exec_dbBreakEnd hwt]; exact hR.enterReadData_same _ h0
  | qCommit => rw [exec_qCommit hw, exec_qCommit hwt]; exact hR.qCommit_same h0
  | handoff => rw [exec_handoff hw, exec_handoff hwt]; exact hR.handoff_same h0
  | waitLow =>
    rw [exec_waitLow hw, exec_waitLow hwt]
    exact .withOperand _ fun m => hR.waitWith_same (fun r _ _ => hR.continueAt_same _ _ r) _ m _ _ h0
  | waitHigh =>
    rw [exec_waitHigh hw, exec_waitHigh hwt]
    exact .withOperand _ fun m => hR.waitWith_same (fun r _ _ => hR.continueAt_same _ _ r) _ m _ _ h0
  | waitPoll => rw [exec_waitPoll hw, exec_waitPoll hwt]; exact hR.waitPoll_same _ h0 (hpoll rfl)
  | tsNow => exact absurd rfl hnow
  | tsResetPeriod => rw [exec_tsResetPeriod hw, exec_tsResetPeriod hwt]; exact hR.write (u := resetPeriodTimer) {} h0
  | tsScheduleNext =>
    rw [exec_tsScheduleNext hw, exec_tsScheduleNext hwt]
    exact .withOperand _ fun k => hR.write (u := scheduleNextIn k) {} h0
  | raiseFrameError c =>
    rw [exec_raiseFrameError hw, exec_raiseFrameError hwt]; exact hR.write (u := raiseFrameError c) {} h0

end Blurs

/-! ## The undefined bytes -/

theorem FrameBuffer.SameValid.refl (f : FrameBuffer) : f.SameValid f := ⟨rfl, rfl, rfl⟩

theorem FrameBuffer.SameValid.clear (h : f.SameValid g) :
    FrameBuffer.SameValid { f with count := 0 } { g with count := 0 } := by
  obtain ⟨-, hlen, -⟩ := h
  exact ⟨rfl, hlen, rfl⟩

/-- The valid bytes after an append are those before it and the byte (R134). -/
theorem take_succ_set {α : Type} {xs : List α} {n : Nat} (h : n < xs.length) (a : α) :
    (xs.set n a).take (n + 1) = xs.take n ++ [a] := by
  rw [List.take_add_one, List.take_set_of_le (Nat.le_refl n), List.getElem?_set_self h]
  rfl

theorem FrameBuffer.SameValid.append (h : f.SameValid g) (hroom : f.count < f.bytes.length) (b : Byte) :
    FrameBuffer.SameValid { count := f.count + 1, bytes := f.bytes.set f.count b }
      { count := g.count + 1, bytes := g.bytes.set g.count b } := by
  obtain ⟨hcount, hlen, hbytes⟩ := h
  refine ⟨congrArg (· + 1) hcount, by simpa using hlen, ?_⟩
  change (f.bytes.set f.count b).take (f.count + 1) = (g.bytes.set g.count b).take (g.count + 1)
  rw [take_succ_set hroom, take_succ_set (by omega), hbytes]

theorem forall₂_getElem?_rel {α : Type} {P : α → α → Prop} {xs ys : List α} (h : List.Forall₂ P xs ys) (i : Nat) :
    Option.Rel P xs[i]? ys[i]? := by
  induction h generalizing i with
  | nil => exact .none
  | cons hab _ ih =>
    cases i with
    | zero => exact .some hab
    | succ i => exact ih i

theorem forall₂_set {α : Type} {P : α → α → Prop} {xs ys : List α} (h : List.Forall₂ P xs ys) {a b : α} (hab : P a b)
    (i : Nat) : List.Forall₂ P (xs.set i a) (ys.set i b) := by
  induction h generalizing i with
  | nil => exact .nil
  | cons hxy hrest ih =>
    cases i with
    | zero => exact .cons hab hrest
    | succ i => exact .cons hxy (ih i)

theorem sameValid_of_slots (h : List.Forall₂ FrameBuffer.SameValid s.slots t.slots) {i : Nat}
    (hf : s.slots[i]? = some f) (hg : t.slots[i]? = some g) : f.SameValid g := by
  have hrel := forall₂_getElem?_rel h i
  rw [hf, hg] at hrel
  cases hrel with
  | some hv => exact hv

theorem blurs_undefinedBytes : Blurs SameUpToUndefinedBytes where
  patched {s t} h := ⟨t.slots, t.mbFrame, s.now, s.wBase, h.2.2⟩
  write {s t u} hu h := by
    obtain ⟨hs, hm, ht⟩ := h
    have hview := hu.view s
    have hut : u t = patch t.slots t.mbFrame s.now s.wBase (u s) := by
      rw [← hu.patch_comm]; exact congrArg u ht
    simp only [blurView, Prod.mk.injEq] at hview
    obtain ⟨eslots, emb, enow, ebase, -, -⟩ := hview
    rw [hut]
    exact ⟨eslots ▸ hs, emb ▸ hm, by simp [patch, ← enow, ← ebase]⟩
  elapsed_eq h _ := by obtain ⟨-, -, ht⟩ := h; rw [ht]; rfl
  advance h := by obtain ⟨hs, hm, ht⟩ := h; rw [ht]; exact ⟨hs, hm, rfl⟩
  snapshot h := by obtain ⟨hs, hm, ht⟩ := h; rw [ht]; exact ⟨hs, hm, rfl⟩
  opens h := by obtain ⟨hs, hm, ht⟩ := h; rw [ht]; exact ⟨hs, hm, rfl⟩
  closes h := by obtain ⟨hs, hm, ht⟩ := h; rw [ht]; exact ⟨hs, hm, rfl⟩
  slot h := forall₂_getElem?_rel h.1
  mailbox h := h.2.1
  clear h hf hg := by
    have hv := sameValid_of_slots h.1 hf hg
    obtain ⟨hs, hm, ht⟩ := h
    rw [ht]
    exact ⟨forall₂_set hs hv.clear _, hm, rfl⟩
  append b h hf hg hroom := by
    have hv := sameValid_of_slots h.1 hf hg
    obtain ⟨hs, hm, ht⟩ := h
    rw [ht]
    exact ⟨forall₂_set hs (hv.append hroom b) _, hm, rfl⟩
  move h hf hg := by
    have hv := sameValid_of_slots h.1 hf hg
    obtain ⟨hs, hm, ht⟩ := h
    rw [ht]
    exact ⟨hs, hv, rfl⟩
  init h := by
    obtain ⟨hs, hm, ht⟩ := h
    rw [ht]
    exact ⟨List.forall₂_same.2 fun f _ => .refl f, .refl _, rfl⟩

/-- Settles O57: the relation blurs only the storage, so TS_NOW and a poll read the same clock. -/
theorem undefinedBytesAreInvisible : Obligations.UndefinedBytesAreInvisible := by
  intro i s t h
  obtain ⟨-, -, ht⟩ := id h
  by_cases hi : i = .tsNow
  · subst hi
    by_cases hw : s.cfg.WF
    · have hwrite := blurs_undefinedBytes.write (u := returning (.ticks s.now)) {} h
      rw [exec_tsNow hw, exec_tsNow (by rw [ht]; exact hw), show t.now = s.now by rw [ht]]
      exact hwrite
    · rw [illFormedConfigIsRefused _ s hw, illFormedConfigIsRefused _ t (by rw [ht]; exact hw)]
      rfl
  · exact blurs_undefinedBytes.exec_same h hi fun _ => by rw [ht]; rfl

/-! ## The counter's origin -/

/-- The counter of a shifted run stays shifted when both advance (R101). -/
theorem shifted_advance (n d m : Nat) : ((n + d) % m + 1) % m = ((n + 1) % m + d) % m := by
  rw [Nat.mod_add_mod, Nat.mod_add_mod, Nat.add_right_comm]

theorem blurs_counterOrigin (d : Nat) : Blurs (SameUpToOrigin d) where
  patched {s t} h := ⟨s.slots, s.mbFrame, t.now, t.wBase, h.2.2⟩
  write {s t u} hu h := by
    obtain ⟨hnow, he, ht⟩ := h
    have hview := hu.view s
    have hut : u t = patch s.slots s.mbFrame t.now t.wBase (u s) := by
      rw [← hu.patch_comm]; exact congrArg u ht
    simp only [blurView, Prod.mk.injEq] at hview
    obtain ⟨eslots, emb, enow, ebase, ecfg, ephase⟩ := hview
    have helapsed : elapsed (u s) = elapsed s := by simp only [elapsed, nowOf, enow, ebase, ecfg]
    have helapsed' : elapsed (u t) = elapsed t := by
      rw [hut]
      simp only [elapsed, nowOf, patch, ecfg]
      rw [show t.cfg = s.cfg by rw [ht]]
    refine ⟨?_, fun hp => ?_, ?_⟩
    · rw [hut, enow, ecfg]; exact hnow
    · rw [helapsed, helapsed']; exact he (ephase ▸ hp)
    · rw [hut]; simp [patch, ← eslots, ← emb]
  elapsed_eq h hp := (h.2.1 hp).symm
  advance {s t} h := by
    obtain ⟨hnow, he, ht⟩ := h
    have hcfg : t.cfg = s.cfg := by rw [ht]
    refine ⟨?_, fun hp => ?_, by rw [ht]; rfl⟩
    · rw [advanceNow_now, advanceNow_now, advanceNow_cfg, hcfg, hnow]; exact shifted_advance ..
    · rw [elapsed_advanceNow, elapsed_advanceNow, he hp, hcfg]
  snapshot {s t} h := by
    obtain ⟨hnow, -, ht⟩ := h
    exact ⟨hnow, fun _ => by rw [elapsed_of_base_now rfl, elapsed_of_base_now rfl], by rw [ht]⟩
  opens {s t} h := by
    obtain ⟨hnow, -, ht⟩ := h
    exact ⟨hnow, fun _ => by rw [elapsed_of_base_now rfl, elapsed_of_base_now rfl], by rw [ht]⟩
  closes {s t} h := by
    obtain ⟨hnow, -, ht⟩ := h
    exact ⟨hnow, nofun, by rw [ht]⟩
  slot {s t} h i := by
    rw [show t.slots = s.slots by rw [h.2.2]]
    exact forall₂_getElem?_rel (List.forall₂_same.2 fun f _ => .refl f) i
  mailbox {s t} h := by rw [show t.mbFrame = s.mbFrame by rw [h.2.2]]; exact .refl _
  clear {s t i f g} h hf hg := by
    obtain ⟨hnow, he, ht⟩ := h
    rw [ht] at hg
    cases hf.symm.trans hg
    exact ⟨hnow, he, by rw [ht]; rfl⟩
  append {s t i f g} b h hf hg _ := by
    obtain ⟨hnow, he, ht⟩ := h
    rw [ht] at hg
    cases hf.symm.trans hg
    exact ⟨hnow, he, by rw [ht]; rfl⟩
  move {s t i f g} h hf hg := by
    obtain ⟨hnow, he, ht⟩ := h
    rw [ht] at hg
    cases hf.symm.trans hg
    exact ⟨hnow, he, by rw [ht]⟩
  init {s t} h := by
    obtain ⟨hnow, -, ht⟩ := h
    exact ⟨hnow, nofun, by rw [ht]; rfl⟩

/-- Settles O58: TS_NOW and WAIT_POLL are no port operations. -/
theorem counterOriginIsInvisible : Obligations.CounterOriginIsInvisible := by
  intro d i s t hi h
  exact (blurs_counterOrigin d).exec_same h (by rintro rfl; cases hi) (by rintro rfl; cases hi)

end Sys2Proof.Machine
end

section
/-! SUPPORT. What every operation leaves alone: the configuration, the inputs and, but for TICK, the counter; and what
a TICK's error leaves, DetectBreak with every counter reset. -/

namespace Sys2Proof.Machine

variable {s t u : State} {l : Level} {r : WaitResult} {i : Instr}

/-! ## The configuration, the inputs and the counter -/

/-- What no action of the producer writes (R20, R25). -/
def fixedView (s : State) : Config × List Request × MicroOperands × Nat := (s.cfg, s.pending, s.uop, s.now)

theorem Writes.fixedView_eq (h : Writes s t) : fixedView t = fixedView s := by
  cases h with
  | own _ h => rw [h]; rfl
  | commit =>
    by_cases hf : nextIndex s.cfg s.head = s.tail
    · rw [qCommit_of_full hf]; rfl
    · rw [qCommit_of_free hf]; rfl
  | clearCount | append | raise | move => rfl

theorem Produces.fixedView_eq (h : Produces s t) : fixedView t = fixedView s := by
  induction h with
  | refl => rfl
  | tail _ hw ih => exact hw.fixedView_eq.trans ih

theorem fixedView_readNextFrame (s : State) : fixedView (readNextFrame s) = fixedView s := by
  cases hm : s.mbFlag <;> simp [readNextFrame, hm, fixedView]

theorem exec_tick_fixedView (h : exec (.tick l) s = .next t) : fixedView t = fixedView (advanceNow s) := by
  rw [exec_tick (wf_of_exec_next h)] at h
  exact (produces_tick h).fixedView_eq

theorem exec_fixedView (h : exec i s = .next t) (hi : ∀ l, i ≠ .tick l) : fixedView t = fixedView s := by
  have hw := wf_of_exec_next h
  by_cases ha : isAction i = true
  · exact (produces_exec ha h).fixedView_eq
  · cases i with
    | tick l => exact absurd rfl (hi l)
    | init => rw [exec_init hw] at h; cases h; rfl
    | readNextFrame => rw [exec_readNextFrame hw] at h; cases h; exact fixedView_readNextFrame _
    | hasErrors => rw [exec_hasErrors hw] at h; cases h; rfl
    | clearErrors => rw [exec_clearErrors hw] at h; cases h; rfl
    | takeErrors => cases takeErrors_eq_next h; rfl
    | tsNow => rw [exec_tsNow hw] at h; cases h; rfl
    | _ => exact absurd rfl ha

/-- Settles O51: an action is a chain of the producer's writes, of which none is to the configuration, the inputs or the
counter, and only TICK advances the counter before it. -/
theorem onlyTickMovesTheCounter : Obligations.OnlyTickMovesTheCounter := by
  intro i s t h
  by_cases hi : ∃ l, i = .tick l
  · obtain ⟨l, rfl⟩ := hi
    have hview := exec_tick_fixedView h
    simp only [fixedView, Prod.mk.injEq] at hview
    obtain ⟨hcfg, hpend, huop, hnow⟩ := hview
    exact ⟨hcfg, hpend, huop, fun hne => absurd rfl (hne l), fun _ => hnow⟩
  · have hview := exec_fixedView h fun l hl => hi ⟨l, hl⟩
    simp only [fixedView, Prod.mk.injEq] at hview
    obtain ⟨hcfg, hpend, huop, hnow⟩ := hview
    exact ⟨hcfg, hpend, huop, fun _ => hnow, fun hl => absurd hl hi⟩

/-! ## The recovery from an error -/

/-- DetectBreak with every counter reset, in the phase `p` (R123). -/
structure Recovered (p : Phase) (t : State) : Prop where
  err : t.err = true
  rxState : t.rxState = .detectBreak
  phase : t.phase = p
  lowCnt : t.lowCnt = 0
  bytesRead : t.bytesRead = 0
  bitCnt : t.bitCnt = 0
  acc : t.acc = 0x00
  mask : t.mask = 0x01

/-- From `s` to `t` no error is raised, or one, and then the producer has recovered (R174). -/
def Recovers (s t : State) : Prop := t.trace = s.trace ∨ ∃ c, t.trace = s.trace ++ [c] ∧ Recovered s.phase t

theorem recovers_failFrame (c : Cause) (s : State) : Recovers s (failFrame c s) :=
  .inr ⟨c, rfl, rfl, rfl, rfl, rfl, rfl, rfl, rfl, rfl⟩

theorem recovers_commit (s : State) : Recovers s (enterDetectBreak (qCommit s)) := by
  by_cases h : nextIndex s.cfg s.head = s.tail
  · rw [qCommit_of_full h]; exact .inr ⟨.overrun, rfl, rfl, rfl, rfl, rfl, rfl, rfl, rfl, rfl⟩
  · rw [qCommit_of_free h]; exact .inl rfl

theorem recovers_waitWith {k : WaitResult → State → Res} (hk : ∀ r s t, k r s = .next t → Recovers s t)
    {level : Level} {max : Nat} {cont : WaitCont} (h : waitWith k level max cont l s = .next t) : Recovers s t := by
  by_cases hm : max = 0
  · rw [hm, waitWith_of_zero] at h; have hrec := hk _ _ _ h; exact hrec
  · by_cases hl : l = level
    · rw [waitWith_of_level hm hl] at h; have hrec := hk _ _ _ h; exact hrec
    · rw [waitWith_of_opens hm hl] at h; cases h; exact .inl rfl

theorem recovers_enterReadData (h : enterReadData l s = .next t) : Recovers s t := by
  obtain ⟨f, -, ⟨-, -, rfl⟩ | ⟨-, rfl⟩⟩ := enterReadData_cases h <;> exact .inl rfl

theorem recovers_rdIfsResolve (h : rdIfsResolve r s = .next t) : Recovers s t := by
  rcases rdIfsResolve_cases h with ⟨-, -, rfl⟩ | ⟨-, -, rfl⟩ | ⟨f, -, -, -, rfl⟩ | ⟨f, -, -, -, rfl⟩
  · exact recovers_failFrame ..
  · exact recovers_commit s
  · exact recovers_failFrame ..
  · exact .inl rfl

theorem recovers_continueAt {c : WaitCont} (h : continueAt c l r s = .next t) : Recovers s t := by
  cases c with
  | brkHigh => exact recovers_enterReadData h
  | startLow => cases h; exact .inl rfl
  | ifsLow => exact recovers_rdIfsResolve h

theorem recovers_dbSample (h : dbSample l s = .next t) : Recovers s t := by
  cases l with
  | high => cases h; exact .inl rfl
  | low =>
    by_cases hb : s.lowCnt + 1 = s.cfg.brkN
    · rw [dbSample_low_of_break hb, waitHigh_brkHigh] at h
      exact recovers_waitWith (s := { s with lowCnt := s.cfg.brkN }) (fun _ _ _ => recovers_enterReadData) h
    · rw [dbSample_low_of_short hb] at h; cases h; exact .inl rfl

theorem recovers_rdStartSample (h : rdStartSample l s = .next t) : Recovers s t := by
  cases l with
  | high => cases h; exact recovers_failFrame ..
  | low => cases h; exact .inl rfl

theorem rdStopSample_high_eq_next (h : rdStopSample .high s = .next t) :
    ∃ f, s.slots[s.head]? = some f ∧ f.count < f.bytes.length ∧
      waitLow s.cfg.tIfs .ifsLow .high (appended f s) = .next t := by
  obtain ⟨u, hu, -⟩ := andThen_eq_next.1 h
  obtain ⟨f, hf, hroom, -⟩ := appendByte_eq_next hu
  exact ⟨f, hf, hroom, (rdStopSample_eq_appended hf hroom).symm.trans h⟩

theorem recovers_rdStopSample (h : rdStopSample l s = .next t) : Recovers s t := by
  cases l with
  | low => cases h; exact recovers_failFrame ..
  | high =>
    obtain ⟨f, -, -, e⟩ := rdStopSample_high_eq_next h
    exact recovers_waitWith (s := appended f s) (fun _ _ _ => recovers_rdIfsResolve) e

theorem recovers_sample (h : sample l s = .next t) : Recovers s t := by
  cases hr : s.rxState with
  | detectBreak => rw [sample_of_detectBreak hr] at h; exact recovers_dbSample h
  | readData =>
    by_cases h0 : s.bitCnt = 0
    · rw [sample_of_startBit hr h0] at h; exact recovers_rdStartSample h
    · by_cases h8 : s.bitCnt ≤ 8
      · rw [sample_of_dataBit hr (by omega) h8] at h; cases h; exact .inl rfl
      · rw [sample_of_past_dataBits hr h8] at h; exact recovers_rdStopSample h

/-- The epilogue raises nothing, and leaves the recovered registers (R152). -/
theorem Recovers.epilogue {x : Res} (h : andThen x epilogue = .next t) (hx : ∀ u, x = .next u → Recovers s u) :
    Recovers s t := by
  obtain ⟨u, hu, e⟩ := andThen_eq_next.1 h
  have hsu := hx u hu
  cases hp : u.phase with
  | wait => rw [epilogue_of_wait hp] at e; cases e; exact hsu
  | idle =>
    rw [epilogue_of_idle hp] at e
    rcases handoff_cases e with ⟨-, rfl⟩ | ⟨f, -, -, -, rfl⟩
    · exact hsu
    · rcases hsu with h | ⟨c, htrace, hrec⟩
      · exact .inl h
      · exact .inr ⟨c, htrace, { hrec with }⟩

theorem recovers_waitPoll (h : waitPoll l s = .next t) : Recovers { s with phase := .idle } t := by
  by_cases hb : s.wMax ≤ elapsed s
  · rw [waitPoll_of_bound hb] at h
    exact .epilogue h fun _ e => recovers_continueAt (s := { s with cd := s.cfg.tpb, phase := .idle }) e
  · have hlt := Nat.lt_of_not_le hb
    by_cases hl : l = s.wLevel
    · rw [waitPoll_of_level hlt hl] at h
      exact .epilogue h fun _ e => recovers_continueAt (s := { s with cd := s.cfg.tpb, phase := .idle }) e
    · rw [waitPoll_of_stays hlt hl] at h; cases h; exact .inl rfl

theorem recovers_tick (h : tick l s = .next t) : Recovers { s with phase := .idle } t := by
  rcases tick_cases h with ⟨-, e⟩ | ⟨hp, -, e⟩ | ⟨-, -, rfl⟩
  · exact recovers_waitPoll (s := advanceNow s) e
  · have hrec := Recovers.epilogue (s := { advanceNow s with cd := s.cfg.tpb }) e fun _ => recovers_sample
    simpa [Recovers, hp] using hrec
  · exact .inl rfl

theorem exec_tick_recovers (h : exec (.tick l) s = .next t) :
    t.trace = s.trace ∨ ∃ c, t.trace = s.trace ++ [c] ∧ Recovered .idle t := by
  rw [exec_tick (wf_of_exec_next h)] at h
  exact recovers_tick (s := returning .nothing s) h

/-- Settles O49: each action of the producer raises at most one error and then has recovered, and of a callback's two
actions, the sample or continuation and the handoff, the second raises none. -/
theorem oneErrorPerTickThenDetectBreak : Obligations.OneErrorPerTickThenDetectBreak := by
  intro l s t h
  refine (exec_tick_recovers h).imp_right fun ⟨c, htrace, hrec⟩ => ⟨c, htrace, ?_⟩
  exact ⟨hrec.err, hrec.rxState, hrec.phase, hrec.lowCnt, hrec.bytesRead, hrec.bitCnt, hrec.acc, hrec.mask⟩

/-- Settles O50: the tick's error sets the flag, which each of the two clears resets; only TAKE_ERRORS returns it. -/
theorem errorBetweenReadAndClearIsLost : Obligations.ErrorBetweenReadAndClearIsLost := by
  intro l s u hw he htick htrace
  have hcfg : u.cfg = s.cfg := congrArg Prod.fst (exec_tick_fixedView htick)
  have hwu : u.cfg.WF := hcfg ▸ hw
  have herr : u.err = true := by
    obtain h | ⟨c, -, hrec⟩ := exec_tick_recovers htick
    · exact absurd h htrace
    · exact hrec.err
  refine ⟨?_, herr, ⟨_, exec_clearErrors hwu, rfl, ?_⟩,
    fun ho => ⟨_, exec_takeErrors_of_option hwu (hcfg ▸ ho), ?_, rfl⟩⟩
  · have hread := exec_hasErrors_eq_returning hw
    rwa [he] at hread
  · exact exec_hasErrors_eq_returning (s := clearErr (returning .nothing u)) hwu
  · exact congrArg OpResult.bit herr

end Sys2Proof.Machine
end

section
/-! SUPPORT. What an operation stores: at most the count and one byte of the head slot, and nothing at all in the forms
`StoresNothing` names (R51, R130, R134). -/

namespace Sys2Proof.Machine

variable {P Q : Prop} {s t u : State} {l : Level} {r : WaitResult} {i : Instr}

/-! ## One write of the head slot -/

/-- From `s` to `t` at most the head slot is written, and of its bytes at most the one at its count. -/
def HeadWrite (s t : State) : Prop :=
  t.slots = s.slots ∨ ∃ f g, s.slots[s.head]? = some f ∧ t.slots = s.slots.set s.head g ∧
    g.bytes.length = f.bytes.length ∧ ∀ j, j ≠ f.count → g.bytes[j]? = f.bytes[j]?

/-- From `s` to `t` at most the head slot is written, and nothing if `P`. -/
def Stores (P : Prop) (s t : State) : Prop := (P → t.slots = s.slots) ∧ HeadWrite s t

theorem Stores.nothing (h : Stores P s t) : P → t.slots = s.slots := h.1

theorem Stores.head (h : Stores P s t) : HeadWrite s t := h.2

theorem Stores.of_eq (h : t.slots = s.slots) : Stores P s t := ⟨fun _ => h, .inl h⟩

theorem Stores.mono (h : Stores P s t) (hq : Q → P) : Stores Q s t := ⟨h.nothing ∘ hq, h.head⟩

theorem Stores.trans_eq (h : Stores P s u) (hu : t.slots = u.slots) : Stores P s t := by
  refine ⟨fun hp => hu.trans (h.nothing hp), ?_⟩
  obtain hkept | ⟨f, g, hf, hset, hbytes⟩ := h.head
  · exact .inl (hu.trans hkept)
  · exact .inr ⟨f, g, hf, hu.trans hset, hbytes⟩

theorem headWrite_clear {f : FrameBuffer} (hf : s.slots[s.head]? = some f)
    (ht : t.slots = s.slots.set s.head { f with count := 0 }) : HeadWrite s t :=
  .inr ⟨f, _, hf, ht, rfl, fun _ _ => rfl⟩

theorem headWrite_append {f : FrameBuffer} {b : Byte} (hf : s.slots[s.head]? = some f)
    (ht : t.slots = s.slots.set s.head { count := f.count + 1, bytes := f.bytes.set f.count b }) : HeadWrite s t :=
  .inr ⟨f, _, hf, ht, List.length_set .., fun _ hj => List.getElem?_set_ne hj.symm⟩

/-! ## The actions of the producer -/

theorem slots_qCommit (s : State) : (qCommit s).slots = s.slots := by
  by_cases h : nextIndex s.cfg s.head = s.tail
  · rw [qCommit_of_full h]
  · rw [qCommit_of_free h]

theorem slots_handoff (h : handoff s = .next t) : t.slots = s.slots := by
  rcases handoff_cases h with ⟨-, rfl⟩ | ⟨f, -, -, -, rfl⟩ <;> rfl

theorem slots_epilogue (h : epilogue s = .next t) : t.slots = s.slots := by
  cases hp : s.phase with
  | idle => rw [epilogue_of_idle hp] at h; exact slots_handoff h
  | wait => rw [epilogue_of_wait hp] at h; cases h; rfl

theorem Stores.epilogue {x : Res} (h : andThen x epilogue = .next t) (hx : ∀ u, x = .next u → Stores P s u) :
    Stores P s t := by
  obtain ⟨u, hu, e⟩ := andThen_eq_next.1 h
  exact (hx u hu).trans_eq (slots_epilogue e)

theorem stores_enterReadData (h : enterReadData l s = .next t) : Stores False s t := by
  obtain ⟨f, hf, ⟨-, -, rfl⟩ | ⟨-, rfl⟩⟩ := enterReadData_cases h <;> exact ⟨False.elim, headWrite_clear hf rfl⟩

theorem slots_rdIfsResolve (h : rdIfsResolve r s = .next t) : t.slots = s.slots := by
  rcases rdIfsResolve_cases h with ⟨-, -, rfl⟩ | ⟨-, -, rfl⟩ | ⟨f, -, -, -, rfl⟩ | ⟨f, -, -, -, rfl⟩
  · rfl
  · exact slots_qCommit s
  · rfl
  · rfl

theorem stores_continueAt {c : WaitCont} (h : continueAt c l r s = .next t) : Stores (c ≠ .brkHigh) s t := by
  cases c with
  | brkHigh => exact (stores_enterReadData h).mono fun hne => hne rfl
  | startLow => cases h; exact .of_eq rfl
  | ifsLow => exact .of_eq (slots_rdIfsResolve h)

theorem stores_waitWith_continueAt {c : WaitCont} {level : Level} {max : Nat}
    (h : waitWith (continueAt c l) level max c l s = .next t) : Stores (c ≠ .brkHigh) s t := by
  by_cases hm : max = 0
  · rw [hm, waitWith_of_zero] at h
    exact stores_continueAt (s := { s with wBase := s.now, cd := s.cfg.tpb }) h
  · by_cases hl : l = level
    · rw [waitWith_of_level hm hl] at h
      exact stores_continueAt (s := { s with wBase := s.now, cd := s.cfg.tpb }) h
    · rw [waitWith_of_opens hm hl] at h; cases h; exact .of_eq rfl

theorem stores_dbSample (h : dbSample l s = .next t) : Stores (s.cfg.tBrk ≠ 0) s t := by
  cases l with
  | high => cases h; exact .of_eq rfl
  | low =>
    by_cases hb : s.lowCnt + 1 = s.cfg.brkN
    · rw [dbSample_low_of_break hb] at h
      by_cases hm : s.cfg.tBrk = 0
      · rw [hm, waitHigh_brkHigh_of_zero] at h
        have hentry := stores_enterReadData (s := { s with lowCnt := s.cfg.brkN, wBase := s.now, cd := s.cfg.tpb }) h
        exact hentry.mono (Q := s.cfg.tBrk ≠ 0) fun hne => hne hm
      · rw [waitHigh_of_low .brkHigh hm] at h; cases h; exact .of_eq rfl
    · rw [dbSample_low_of_short hb] at h; cases h; exact .of_eq rfl

theorem slots_rdStartSample (h : rdStartSample l s = .next t) : t.slots = s.slots := by
  cases l <;> cases h <;> rfl

theorem stores_rdStopSample (h : rdStopSample l s = .next t) : Stores (l = .low) s t := by
  cases l with
  | low => cases h; exact .of_eq rfl
  | high =>
    obtain ⟨f, hf, hroom, e⟩ := rdStopSample_high_eq_next h
    refine ⟨nofun, headWrite_append (b := s.acc) hf ?_⟩
    have hwait := (stores_waitWith_continueAt (c := .ifsLow) (s := appended f s) e).nothing (by decide)
    exact hwait

theorem stores_sample (h : sample l s = .next t) : Stores (SampleStoresNothing l s) s t := by
  cases hr : s.rxState with
  | detectBreak =>
    rw [sample_of_detectBreak hr] at h
    exact (stores_dbSample h).mono fun hs => by simpa [SampleStoresNothing, hr] using hs
  | readData =>
    by_cases h0 : s.bitCnt = 0
    · rw [sample_of_startBit hr h0] at h; exact .of_eq (slots_rdStartSample h)
    · by_cases h8 : s.bitCnt ≤ 8
      · rw [sample_of_dataBit hr (by omega) h8] at h; cases h; exact .of_eq rfl
      · rw [sample_of_past_dataBits hr h8] at h
        exact (stores_rdStopSample h).mono fun hs => by simpa [SampleStoresNothing, hr, h8] using hs

theorem stores_callback (h : callback l s = .next t) : Stores (SampleStoresNothing l s) s t :=
  .epilogue h fun _ => stores_sample

theorem stores_waitPoll (h : waitPoll l s = .next t) : Stores (s.wCont ≠ .brkHigh) s t := by
  by_cases hb : s.wMax ≤ elapsed s
  · rw [waitPoll_of_bound hb] at h
    exact .epilogue h fun _ e => stores_continueAt (s := { s with cd := s.cfg.tpb, phase := .idle }) e
  · have hlt := Nat.lt_of_not_le hb
    by_cases hl : l = s.wLevel
    · rw [waitPoll_of_level hlt hl] at h
      exact .epilogue h fun _ e => stores_continueAt (s := { s with cd := s.cfg.tpb, phase := .idle }) e
    · rw [waitPoll_of_stays hlt hl] at h; cases h; exact .of_eq rfl

theorem stores_tick (h : tick l s = .next t) : Stores (StoresNothing s (.tick l)) s t := by
  rcases tick_cases h with ⟨hp, e⟩ | ⟨hp, hc, e⟩ | ⟨-, -, rfl⟩
  · have hpoll := stores_waitPoll (s := advanceNow s) e
    exact ⟨fun hs => hpoll.nothing (by simpa [StoresNothing, hp] using hs), hpoll.head⟩
  · have hcall := stores_callback (s := { advanceNow s with cd := s.cfg.tpb }) e
    exact ⟨fun hs => hcall.nothing (by simpa [StoresNothing, SampleStoresNothing, hp, hc] using hs), hcall.head⟩
  · exact .of_eq rfl

/-! ## Every operation -/

theorem slots_readNextFrame (s : State) : (readNextFrame s).slots = s.slots := by
  cases hm : s.mbFlag <;> simp [readNextFrame, hm]

theorem stores_exec (hi : i ≠ .init) (h : exec i s = .next t) : Stores (StoresNothing s i) s t := by
  have hw := wf_of_exec_next h
  cases i with
  | init => exact absurd rfl hi
  | tick l => rw [exec_tick hw] at h; exact stores_tick (s := returning .nothing s) h
  | readNextFrame => rw [exec_readNextFrame hw] at h; cases h; exact .of_eq (slots_readNextFrame _)
  | hasErrors => rw [exec_hasErrors hw] at h; cases h; exact .of_eq rfl
  | clearErrors => rw [exec_clearErrors hw] at h; cases h; exact .of_eq rfl
  | takeErrors => cases takeErrors_eq_next h; exact .of_eq rfl
  | callback => rw [exec_callback hw] at h; exact stores_callback (s := returning .nothing s) h
  | dbSample => rw [exec_dbSample hw] at h; exact stores_dbSample (s := returning .nothing s) h
  | rdEntry => rw [exec_rdEntry hw] at h; exact stores_enterReadData (s := returning .nothing s) h
  | dbBreakEnd => rw [exec_dbBreakEnd hw] at h; exact stores_enterReadData (s := returning .nothing s) h
  | rdAlign => rw [exec_rdAlign hw] at h; cases h; exact .of_eq rfl
  | rdStartSample => rw [exec_rdStartSample hw] at h; exact .of_eq (slots_rdStartSample (s := returning .nothing s) h)
  | rdDataSample => rw [exec_rdDataSample hw] at h; cases h; exact .of_eq rfl
  | rdStopSample => rw [exec_rdStopSample hw] at h; exact stores_rdStopSample (s := returning .nothing s) h
  | rdIfsResolve => rw [exec_rdIfsResolve hw] at h; exact .of_eq (slots_rdIfsResolve (s := returning .nothing s) h)
  | dbEntry => rw [exec_dbEntry hw] at h; cases h; exact .of_eq rfl
  | qCommit => rw [exec_qCommit hw] at h; cases h; exact .of_eq (slots_qCommit _)
  | handoff => rw [exec_handoff hw] at h; exact .of_eq (slots_handoff (s := returning .nothing s) h)
  | waitLow =>
    rw [exec_waitLow hw] at h
    obtain ⟨m, -, e⟩ := withOperand_eq_next.1 h
    exact stores_waitWith_continueAt (s := returning .nothing s) e
  | waitHigh =>
    rw [exec_waitHigh hw] at h
    obtain ⟨m, -, e⟩ := withOperand_eq_next.1 h
    exact stores_waitWith_continueAt (s := returning .nothing s) e
  | waitPoll => rw [exec_waitPoll hw] at h; exact stores_waitPoll (s := returning .nothing s) h
  | tsNow => rw [exec_tsNow hw] at h; cases h; exact .of_eq rfl
  | tsResetPeriod => rw [exec_tsResetPeriod hw] at h; cases h; exact .of_eq rfl
  | tsScheduleNext =>
    rw [exec_tsScheduleNext hw] at h
    obtain ⟨k, -, e⟩ := withOperand_eq_next.1 h
    cases e; exact .of_eq rfl
  | raiseFrameError c => rw [exec_raiseFrameError hw] at h; cases h; exact .of_eq rfl

/-- What a write of the head slot leaves of the other slots and of the bytes (R31). -/
theorem HeadWrite.frame (h : HeadWrite s t) :
    t.slots.length = s.slots.length ∧ (∀ j, j ≠ s.head → t.slots[j]? = s.slots[j]?) ∧
    ∀ f g, s.slots[s.head]? = some f → t.slots[s.head]? = some g →
      g.bytes.length = f.bytes.length ∧ ∀ j, j ≠ f.count → g.bytes[j]? = f.bytes[j]? := by
  obtain hkept | ⟨f, g, hf, hset, hbytes⟩ := h
  · rw [hkept]
    refine ⟨rfl, fun _ _ => rfl, fun f g hf hg => ?_⟩
    cases hf.symm.trans hg
    exact ⟨rfl, fun _ _ => rfl⟩
  · have hlt := (List.getElem?_eq_some_iff.1 hf).1
    rw [hset]
    refine ⟨List.length_set .., fun j hj => List.getElem?_set_ne hj.symm, fun f' g' hf' hg' => ?_⟩
    rw [List.getElem?_set_self hlt] at hg'
    cases hf.symm.trans hf'
    cases hg'
    exact hbytes

/-- Settles O52: each action of the producer stores at most once, into the head slot; none after it in the same
operation stores, and the consumer's operations store nothing. -/
theorem producerWritesOnlyTheHeadSlot : Obligations.ProducerWritesOnlyTheHeadSlot := by
  intro i s t hi h
  obtain ⟨hnothing, hhead⟩ := stores_exec hi h
  exact ⟨hnothing, hhead.frame⟩

end Sys2Proof.Machine
end

section
/-! SUPPORT. Runs of ticks: the quiet ticks before a callback, the polls of an open wait, and, built from these, a run
that takes a sample at the end of every period: a low line in DetectBreak, and the bits of an ideal character. -/

namespace Sys2Proof.Machine

variable {s t : State} {l : Level} {ls : List Level}

/-! ## Waves and the counter -/

theorem runTicks_cons_of_next (h : exec (.tick l) s = .next t) : runTicks (l :: ls) s = runTicks ls t := by
  rw [runTicks, h, andThen_next]

theorem runTicks_singleton (l : Level) (s : State) : runTicks [l] s = exec (.tick l) s := by
  rw [runTicks]
  cases exec (.tick l) s <;> rfl

theorem runTicks_append_of_next {ks : List Level} (h : runTicks ls s = .next t) :
    runTicks (ls ++ ks) s = runTicks ks t := by
  induction ls generalizing s with
  | nil => cases h; rfl
  | cons l ls ih =>
    obtain ⟨u, hu, e⟩ := andThen_eq_next.1 h
    rw [List.cons_append, runTicks_cons_of_next hu, ih e]

theorem wrapSub_add (w now base n : Nat) : wrapSub w ((now + n) % 2 ^ w) base = (wrapSub w now base + n) % 2 ^ w := by
  simp only [wrapSub, Nat.mod_add_mod]
  congr 1
  omega

/-- The elapsed ticks of an open wait after `n` more ticks, short of the counter's wrap (R106). -/
theorem elapsed_nowAfter {n : Nat} (hnow : t.now = nowAfter n s) (hcfg : t.cfg = s.cfg) (hbase : t.wBase = s.wBase)
    (hlt : elapsed s + n < 2 ^ s.cfg.tickW) : elapsed t = elapsed s + n := by
  rw [elapsed, nowOf, hnow, hcfg, hbase]
  exact (wrapSub_add ..).trans (Nat.mod_eq_of_lt hlt)

/-! ## Quiet ticks -/

/-- The state `n` ticks on, short of the countdown (R101). -/
def quieted (n : Nat) (s : State) : State := { s with now := nowAfter n s, cd := s.cd - n, result := .nothing }

theorem quieted_quieted (m n : Nat) (s : State) : quieted n (quieted m s) = quieted (m + n) s := by
  simp only [quieted, nowAfter, Nat.mod_add_mod, Nat.add_assoc, Nat.sub_sub]

/-- A state at a callback `n` ticks on: the period is reloaded before the sample (R101). -/
def sampledAt (n : Nat) (s : State) : State := { s with now := nowAfter n s, cd := s.cfg.tpb, result := .nothing }

theorem sampledAt_sampledAt (m n : Nat) (s : State) : sampledAt n (sampledAt m s) = sampledAt (m + n) s := by
  simp only [sampledAt, nowAfter, Nat.mod_add_mod, Nat.add_assoc]

theorem sampledAt_quieted (m n : Nat) (s : State) : sampledAt n (quieted m s) = sampledAt (m + n) s := by
  simp only [sampledAt, quieted, nowAfter, Nat.mod_add_mod, Nat.add_assoc]

theorem runTicks_quiet (hw : s.cfg.WF) (hp : s.phase = .idle) (hne : ls ≠ []) (hlt : ls.length < s.cd) :
    runTicks ls s = .next (quieted ls.length s) := by
  induction ls generalizing s with
  | nil => exact absurd rfl hne
  | cons l ls ih =>
    rw [List.length_cons] at hlt
    have hstep : exec (.tick l) s = .next (quieted 1 s) := exec_tick_of_counts hw l hp (by omega)
    rw [runTicks_cons_of_next hstep]
    by_cases hnil : ls = []
    · subst hnil; rfl
    · rw [ih (s := quieted 1 s) hw hp hnil (by simp only [quieted]; omega), quieted_quieted, List.length_cons,
        Nat.add_comm 1]

/-- The ticks of a countdown run the callback at the level of the last (R101). -/
theorem runTicks_fires (hw : s.cfg.WF) (hp : s.phase = .idle) (hlen : ls.length + 1 = s.cd) :
    runTicks (ls ++ [l]) s = callback l (sampledAt (ls.length + 1) s) := by
  by_cases hnil : ls = []
  · subst hnil
    exact (runTicks_singleton l s).trans (exec_tick_of_fires hw l hp hlen.symm)
  · rw [runTicks_append_of_next (runTicks_quiet hw hp hnil (by omega)), runTicks_singleton]
    refine (exec_tick_of_fires (s := quieted ls.length s) hw l hp (by simp only [quieted]; omega)).trans ?_
    exact congrArg (callback l) (sampledAt_quieted ..)

/-- Settles O17. -/
theorem quietTicksThenCallback : Obligations.QuietTicksThenCallback := fun _ _ _ hw hp hne =>
  ⟨runTicks_quiet hw hp hne, runTicks_fires hw hp⟩

/-! ## An open wait -/

theorem runTicks_openWait (hw : s.cfg.WF) (hp : s.phase = .wait) (hmax : s.wMax < 2 ^ s.cfg.tickW) (hne : ls ≠ [])
    (hoff : ∀ x ∈ ls, x ≠ s.wLevel) (hlt : elapsed s + ls.length < s.wMax) :
    runTicks ls s = .next (sampledAt ls.length s) := by
  induction ls generalizing s with
  | nil => exact absurd rfl hne
  | cons l ls ih =>
    rw [List.length_cons] at hlt
    obtain ⟨hl, hrest⟩ := List.forall_mem_cons.1 hoff
    have he : elapsed { s with now := nowAfter 1 s, result := .nothing } = elapsed s + 1 :=
      elapsed_nowAfter rfl rfl rfl (by omega)
    have hstep : exec (.tick l) s = .next (sampledAt 1 s) :=
      (exec_tick_of_wait hw l hp).trans (waitPoll_of_stays (he ▸ by dsimp only; omega) hl)
    have he' : elapsed (sampledAt 1 s) = elapsed s + 1 := he
    rw [runTicks_cons_of_next hstep]
    by_cases hnil : ls = []
    · subst hnil; rfl
    · rw [ih (s := sampledAt 1 s) hw hp hmax hnil hrest (by rw [he']; simp only [sampledAt]; omega),
        sampledAt_sampledAt, List.length_cons, Nat.add_comm 1]

/-- The tick that finds an open wait at its level, short of the bound, ends it OK (R114). -/
theorem exec_tick_ends_ok (hw : s.cfg.WF) (hp : s.phase = .wait) (hmax : s.wMax < 2 ^ s.cfg.tickW)
    (hlt : elapsed s + 1 < s.wMax) (hl : l = s.wLevel) : exec (.tick l) s = endWait l .ok (sampledAt 1 s) := by
  have he : elapsed { s with now := nowAfter 1 s, result := .nothing } = elapsed s + 1 :=
    elapsed_nowAfter rfl rfl rfl (by omega)
  exact (exec_tick_of_wait hw l hp).trans (waitPoll_of_level (he ▸ hlt) hl)

/-- The tick that reaches the bound of an open wait ends it FAIL, whatever the line reads (R114). -/
theorem exec_tick_ends_fail (hw : s.cfg.WF) (hp : s.phase = .wait) (hmax : s.wMax < 2 ^ s.cfg.tickW)
    (heq : elapsed s + 1 = s.wMax) (l : Level) : exec (.tick l) s = endWait l .fail (sampledAt 1 s) := by
  have he : elapsed { s with now := nowAfter 1 s, result := .nothing } = elapsed s + 1 :=
    elapsed_nowAfter rfl rfl rfl (by omega)
  exact (exec_tick_of_wait hw l hp).trans (waitPoll_of_bound (Nat.le_of_eq (heq ▸ he.symm)))

/-- Settles O18: the polls before the last leave the wait open, and the last is a tick of the state they leave. -/
theorem openWaitOutcomeLaw : Obligations.OpenWaitOutcomeLaw := by
  intro ls l s hw hp hmax hne hoff hlt
  have he : elapsed (sampledAt ls.length s) = elapsed s + ls.length := elapsed_nowAfter rfl rfl rfl (by omega)
  have hsum := sampledAt_sampledAt ls.length 1 s
  refine ⟨runTicks_openWait hw hp hmax hne hoff hlt, fun hlt' hl => ?_, fun heq => ?_⟩
  · exact (exec_tick_ends_ok (s := sampledAt ls.length s) hw hp hmax (he ▸ hlt') hl).trans (by rw [hsum]; rfl)
  · exact (exec_tick_ends_fail (s := sampledAt ls.length s) hw hp hmax (he ▸ heq) l).trans (by rw [hsum]; rfl)

/-! ## A sample at the end of every period -/

/-- The levels of the ticks `0` to `n - 1` of a wave. -/
def wave (f : Nat → Level) (n : Nat) : List Level := (List.range n).map f

theorem wave_add (f : Nat → Level) (m n : Nat) : wave f (m + n) = wave f m ++ wave (fun i => f (m + i)) n := by
  simp [wave, List.range_add, Function.comp_def]

/-- A wave of one countdown is sampled at its last tick. -/
theorem runTicks_wave_fires (hw : s.cfg.WF) (hp : s.phase = .idle) (hcd : 1 ≤ s.cd) (f : Nat → Level) :
    runTicks (wave f s.cd) s = callback (f (s.cd - 1)) (sampledAt s.cd s) := by
  obtain ⟨n, hn⟩ : ∃ n, s.cd = n + 1 := ⟨s.cd - 1, by omega⟩
  have hlen : (wave f n).length + 1 = s.cd := by simp [wave, hn]
  have hsnoc : wave f s.cd = wave f n ++ [f n] := by rw [hn, wave, List.range_succ, List.map_append]; rfl
  rw [hsnoc, runTicks_fires hw hp hlen, hlen, show s.cd - 1 = n by omega]

/-- A run with a sample at the end of its countdown and of each period after it: if the sample at tick
`cd + j * TPB` takes `X j` to `X (j + 1)`, up to the clock, the run ends in the last of these. -/
theorem runTicks_samples {X : Nat → State} (hw : s.cfg.WF) (hcd : 1 ≤ s.cd) (f : Nat → Level) (h0 : X 0 = s) (m : Nat)
    (hX : ∀ j, (X j).phase = .idle ∧ (X j).cfg = s.cfg)
    (hstep : ∀ j ≤ m, callback (f (s.cd + j * s.cfg.tpb - 1)) (sampledAt (s.cd + j * s.cfg.tpb) (X j)) =
      .next (sampledAt (s.cd + j * s.cfg.tpb) (X (j + 1)))) :
    runTicks (wave f (s.cd + m * s.cfg.tpb)) s = .next (sampledAt (s.cd + m * s.cfg.tpb) (X (m + 1))) := by
  induction m with
  | zero =>
    have hfirst := hstep 0 (Nat.le_refl 0)
    rw [Nat.zero_mul, Nat.add_zero, h0] at hfirst
    rw [Nat.zero_mul, Nat.add_zero, runTicks_wave_fires hw (h0 ▸ (hX 0).1) hcd, hfirst]
  | succ m ih =>
    obtain ⟨hp, hcfg⟩ := hX (m + 1)
    have htpb := hw.one_le_tpb
    have hcd' : (sampledAt (s.cd + m * s.cfg.tpb) (X (m + 1))).cd = s.cfg.tpb := congrArg Config.tpb hcfg
    have hfires := runTicks_wave_fires (s := sampledAt (s.cd + m * s.cfg.tpb) (X (m + 1))) (by exact hcfg ▸ hw) hp
      (hcd'.symm ▸ htpb) fun i => f (s.cd + m * s.cfg.tpb + i)
    have hsum : s.cd + (m + 1) * s.cfg.tpb = s.cd + m * s.cfg.tpb + s.cfg.tpb := by rw [Nat.succ_mul, Nat.add_assoc]
    rw [hcd', sampledAt_sampledAt, ← Nat.add_sub_assoc htpb, ← hsum, hstep (m + 1) (Nat.le_refl _)] at hfires
    rw [hsum, wave_add, runTicks_append_of_next (ih fun j hj => hstep j (Nat.le_succ_of_le hj)), hfires, hsum]

/-! ## A low line in DetectBreak -/

/-- A sample in DetectBreak that opens no wait, with nothing to hand over (R122). -/
theorem callback_counts {n : Nat} (hr : s.rxState = .detectBreak) (hidle : HandoffIdle s)
    (h : dbSample l s = .next { s with lowCnt := n }) : callback l s = .next { s with lowCnt := n } := by
  rw [callback_of_sample ((sample_of_detectBreak hr).trans h)]
  exact epilogue_of_handoffIdle hidle

/-- Low samples short of `BRK_N` count (R122). -/
theorem runTicks_lows (hw : s.cfg.WF) (hr : s.rxState = .detectBreak) (hp : s.phase = .idle) (hcd : 1 ≤ s.cd)
    (hidle : HandoffIdle s) {m : Nat} (hlt : s.lowCnt + m + 1 < s.cfg.brkN) :
    runTicks (wave (fun _ => .low) (s.cd + m * s.cfg.tpb)) s =
      .next (sampledAt (s.cd + m * s.cfg.tpb) { s with lowCnt := s.lowCnt + (m + 1) }) := by
  refine runTicks_samples (X := fun j => { s with lowCnt := s.lowCnt + j }) hw hcd _ rfl m (fun _ => ⟨hp, rfl⟩) ?_
  intro j hj
  exact callback_counts hr hidle (dbSample_low_of_short (by simp only [sampledAt]; omega))

/-- The state in which the break's wait has opened at the tick `n` (R122). -/
def breakOpened (n : Nat) (s : State) : State :=
  { sampledAt n s with
    lowCnt := s.cfg.brkN, phase := .wait, wLevel := .high, wBase := nowAfter n s, wMax := s.cfg.tBrk,
    wCont := .brkHigh }

theorem callback_opens_break {n : Nat} (hm : s.cfg.tBrk ≠ 0) (hr : s.rxState = .detectBreak)
    (hb : s.lowCnt + 1 = s.cfg.brkN) : callback .low (sampledAt n s) = .next (breakOpened n s) := by
  have hsample : sample .low (sampledAt n s) = .next (breakOpened n s) :=
    (sample_of_detectBreak (s := sampledAt n s) hr).trans
      ((dbSample_low_of_break (s := sampledAt n s) hb).trans (waitHigh_of_low .brkHigh hm _))
  rw [callback_of_sample hsample]
  exact epilogue_of_wait rfl

/-- The `BRK_N`-th low sample opens the break's wait (R122). -/
theorem runTicks_break (hw : s.cfg.WF) (hm : s.cfg.tBrk ≠ 0) (hr : s.rxState = .detectBreak) (hp : s.phase = .idle)
    (hcd : 1 ≤ s.cd) (hidle : HandoffIdle s) {m : Nat} (hb : s.lowCnt + m + 1 = s.cfg.brkN) :
    runTicks (wave (fun _ => .low) (s.cd + m * s.cfg.tpb)) s = .next (breakOpened (s.cd + m * s.cfg.tpb) s) := by
  cases m with
  | zero =>
    rw [Nat.zero_mul, Nat.add_zero, runTicks_wave_fires hw hp hcd]
    exact callback_opens_break hm hr hb
  | succ m =>
    have hlows := runTicks_lows hw hr hp hcd hidle (m := m) (by omega)
    rw [Nat.succ_mul, ← Nat.add_assoc, wave_add, runTicks_append_of_next hlows]
    refine (runTicks_wave_fires (s := sampledAt _ { s with lowCnt := s.lowCnt + (m + 1) }) hw hp hw.one_le_tpb
      _).trans ?_
    rw [sampledAt_sampledAt]
    exact callback_opens_break (s := { s with lowCnt := s.lowCnt + (m + 1) }) hm hr hb

theorem replicate_eq_wave (n : Nat) (l : Level) : List.replicate n l = wave (fun _ => l) n := by
  simp [wave]

/-- Settles O34: `BRK_N - 1` low samples count, and the next opens the wait. -/
theorem lowRunIsABreak : Obligations.LowRunIsABreak := by
  intro s hw hm hr hp hlow hcd hidle
  have hbrk := hw.one_le_brkN
  have hrun := runTicks_break hw hm hr hp hcd hidle (m := s.cfg.brkN - 1) (by omega)
  rw [← replicate_eq_wave] at hrun
  exact hrun

/-- The low samples counted after `j` samples of the levels `f`, a high one resetting the count (R122). -/
def lowsCounted (f : Nat → Level) : Nat → Nat
  | 0 => 0
  | j + 1 => match f j with
    | .high => 0
    | .low => lowsCounted f j + 1

theorem lowsCounted_le (f : Nat → Level) (j : Nat) : lowsCounted f j ≤ j := by
  induction j with
  | zero => exact Nat.le_refl 0
  | succ j ih =>
    simp only [lowsCounted]
    split <;> omega

theorem dbSample_lowsCounted {f : Nat → Level} {j : Nat} (hs : s.lowCnt = lowsCounted f j)
    (hb : f j = .low → j + 1 < s.cfg.brkN) : dbSample (f j) s = .next { s with lowCnt := lowsCounted f (j + 1) } := by
  have hle := lowsCounted_le f j
  cases hl : f j with
  | high => simp [dbSample_high, lowsCounted, hl]
  | low =>
    have hlt := hb hl
    rw [dbSample_low_of_short (by omega)]
    simp [lowsCounted, hl, hs]

/-- The level at the tick `i` of a run of `k` low ticks and high ticks after them. -/
def lowThenHigh (k i : Nat) : Level := if i < k then .low else .high

theorem replicate_append_replicate_eq_wave {k n : Nat} (h : k ≤ n) :
    List.replicate k Level.low ++ List.replicate (n - k) .high = wave (lowThenHigh k) n := by
  obtain ⟨m, rfl⟩ := Nat.exists_eq_add_of_le h
  rw [wave_add, Nat.add_sub_cancel_left]
  congr 1
  · rw [replicate_eq_wave]
    exact List.map_congr_left fun i hi => (if_pos (List.mem_range.1 hi)).symm
  · rw [replicate_eq_wave]
    exact List.map_congr_left fun i _ => (if_neg (by omega)).symm

/-- The level of the sample `j` of such a run, at the tick `cd + j * TPB`. -/
def lowThenHighSample (k : Nat) (s : State) (j : Nat) : Level := lowThenHigh k (s.cd + j * s.cfg.tpb - 1)

/-- Settles O35: a high sample comes before the `BRK_N`-th low one, and the last sample is high. -/
theorem shortLowRunIsNoBreak : Obligations.ShortLowRunIsNoBreak := by
  intro s k hw hr hp hlow hcd hidle hk
  have hbrk := hw.one_le_brkN
  have htpb := hw.one_le_tpb
  have hwave := replicate_append_replicate_eq_wave (k := k) (n := s.cd + (s.cfg.brkN - 1) * s.cfg.tpb) (by omega)
  have hlast : lowThenHighSample k s (s.cfg.brkN - 1) = .high := if_neg (by omega)
  have hzero : lowsCounted (lowThenHighSample k s) (s.cfg.brkN - 1 + 1) = 0 := by simp [lowsCounted, hlast]
  have hrun := runTicks_samples (X := fun j => { s with lowCnt := lowsCounted (lowThenHighSample k s) j }) hw hcd
    (lowThenHigh k) (by simp [lowsCounted, ← hlow]) (s.cfg.brkN - 1) (fun _ => ⟨hp, rfl⟩) fun j hj => by
      refine callback_counts hr hidle (dbSample_lowsCounted (f := lowThenHighSample k s) (j := j) rfl fun hl => ?_)
      have hne : j ≠ s.cfg.brkN - 1 := by
        rintro rfl
        simp [hlast] at hl
      simp only [sampledAt]
      omega
  rw [hzero] at hrun
  exact (congrArg (runTicks · s) hwave).trans hrun

/-! ## An ideal character -/

theorem charWave_eq_wave (c : Config) (b : Byte) :
    charWave c b = wave (fun j => charLevel b ((j + 1) / c.tpb)) (c.kMid + 9 * c.tpb) := rfl

/-- With `K_MID <= TPB - 1` the sample `j` of a character is in bit period `j` (R136). -/
theorem charLevel_at_sample (b : Byte) {k tpb j : Nat} (h1 : 1 ≤ k) (hk : k + 1 ≤ tpb) :
    charLevel b ((k + j * tpb - 1 + 1) / tpb) = charLevel b j := by
  congr 1
  rw [Nat.sub_add_cancel (by omega), Nat.add_mul_div_right _ _ (by omega), Nat.div_eq_of_lt (by omega), Nat.zero_add]

/-- The states of a character after its first `j` samples: the start sample and the data bits (R132, R133). -/
def characterSampled (b : Byte) (s : State) : Nat → State
  | 0 => s
  | j + 1 => assembling b j s

theorem callback_character_sample (b : Byte) {n j : Nat} (hr : s.rxState = .readData) (hbit : s.bitCnt = 0)
    (hidle : HandoffIdle s) (hj : j ≤ 8) :
    callback (charLevel b j) (sampledAt n (characterSampled b s j)) =
      .next (sampledAt n (characterSampled b s (j + 1))) := by
  have hsample : sample (charLevel b j) (sampledAt n (characterSampled b s j)) =
      .next (sampledAt n (characterSampled b s (j + 1))) := by
    cases j with
    | zero =>
      refine (sample_of_startBit (s := sampledAt n s) hr hbit).trans ?_
      simp [charLevel, rdStartSample, characterSampled, assembling, sampledAt, nowAfter]
    | succ j =>
      refine (sample_of_dataBit (s := sampledAt n (assembling b j s)) hr (Nat.succ_le_succ (Nat.zero_le j)) hj).trans ?_
      exact congrArg _ (rdDataSample_assembling b hj (sampledAt n s))
  rw [callback_of_sample hsample]
  exact epilogue_of_handoffIdle hidle

/-- Eight data samples assemble the byte and shift the mask out (R53). -/
theorem assembling_eight (b : Byte) (s : State) :
    assembling b 8 s = { s with acc := b, mask := 0x00, bitCnt := 9 } := by
  have hall : b &&& BitVec.ofNat 8 (2 ^ 8 - 1) = b := BitVec.and_allOnes
  rw [assembling, hall]
  rfl

/-- The state after the character `b`, whose stop sample at the tick `n` found the head slot's buffer `f` (R136). -/
def characterReceived (b : Byte) (f : FrameBuffer) (n : Nat) (s : State) : State :=
  { sampledAt n s with
    slots := s.slots.set s.head { count := f.count + 1, bytes := f.bytes.set f.count b }
    bytesRead := s.bytesRead + 1, bitCnt := 0, acc := b, mask := 0x00, phase := .wait
    wLevel := .low, wBase := nowAfter n s, wMax := s.cfg.tIfs, wCont := .ifsLow }

theorem callback_character_stop (b : Byte) {f : FrameBuffer} {n : Nat} (hifs : s.cfg.tIfs ≠ 0)
    (hr : s.rxState = .readData) (hf : s.slots[s.head]? = some f) (hroom : f.count < f.bytes.length) :
    callback .high (sampledAt n (assembling b 8 s)) = .next (characterReceived b f n s) := by
  rw [assembling_eight]
  have hsample : sample .high (sampledAt n { s with acc := b, mask := 0x00, bitCnt := 9 }) =
      .next (characterReceived b f n s) :=
    (sample_of_stopBit (s := sampledAt n { s with acc := b, mask := 0x00, bitCnt := 9 }) hr rfl).trans
      ((rdStopSample_eq_appended (s := sampledAt n { s with acc := b, mask := 0x00, bitCnt := 9 }) hf hroom).trans
        (waitLow_of_high .ifsLow hifs _))
  rw [callback_of_sample hsample]
  exact epilogue_of_wait rfl

/-- The start sample, eight data samples and the stop sample, one a bit period (R136). -/
theorem runTicks_charWave (b : Byte) {f : FrameBuffer} (hw : s.cfg.WF) (hk : s.cfg.kMid + 1 ≤ s.cfg.tpb)
    (hifs : s.cfg.tIfs ≠ 0) (hr : s.rxState = .readData) (hp : s.phase = .idle) (hbit : s.bitCnt = 0)
    (hcd : s.cd = s.cfg.kMid) (hidle : HandoffIdle s) (hf : s.slots[s.head]? = some f)
    (hroom : f.count < f.bytes.length) :
    runTicks (charWave s.cfg b) s = .next (characterReceived b f (s.cfg.kMid + 9 * s.cfg.tpb) s) := by
  have hk1 := hw.one_le_kMid
  have htpb := hw.one_le_tpb
  have hrun := runTicks_samples (X := characterSampled b s) hw (hcd ▸ hk1)
    (fun j => charLevel b ((j + 1) / s.cfg.tpb)) rfl 8 (by rintro (_ | j) <;> exact ⟨hp, rfl⟩) fun j hj => by
      rw [hcd, charLevel_at_sample b hk1 hk]
      exact callback_character_sample b hr hbit hidle hj
  rw [hcd] at hrun
  have hsum : s.cfg.kMid + 9 * s.cfg.tpb = s.cfg.kMid + 8 * s.cfg.tpb + s.cfg.tpb := by omega
  have hlevel : charLevel b ((s.cfg.kMid + 8 * s.cfg.tpb + (s.cfg.tpb - 1) + 1) / s.cfg.tpb) = .high := by
    rw [← Nat.add_sub_assoc htpb, ← hsum, charLevel_at_sample b hk1 hk]
    rfl
  rw [charWave_eq_wave, hsum, wave_add, runTicks_append_of_next hrun]
  refine (runTicks_wave_fires (s := sampledAt _ (assembling b 8 s)) hw hp htpb _).trans ?_
  rw [sampledAt_sampledAt]
  exact (congrArg (callback · _) hlevel).trans (callback_character_stop b hifs hr hf hroom)

/-- Settles O33. -/
theorem idealCharacterIsReceived : Obligations.IdealCharacterIsReceived := fun b _ _ => runTicks_charWave b

end Sys2Proof.Machine
end

section
/-! SUPPORT. The reception of a whole frame. What the statement reads of the state is its books: the queue as a list,
the Mailbox, the Error Flag and the trace. A handoff and a commit are functions on the books, everything else keeps
them, and the walk through the frame is a chain of four stages of the core: the break's wait, the start-bit wait, a
character on the way, and the inter-byte wait. -/

namespace Sys2Proof.Machine

variable {s t u : State} {l : Level} {ls : List Level} {f : FrameBuffer}

/-! ## The books -/

/-- What a claim about delivered frames reads, with the configuration. -/
structure Books where
  cfg : Config
  queue : List FrameBuffer
  mbFlag : Bool
  mbFrame : FrameBuffer
  err : Bool
  trace : List Cause

def books (s : State) : Books := ⟨s.cfg, queued s, s.mbFlag, s.mbFrame, s.err, s.trace⟩

theorem books_fields {b : Books} (h : books t = b) :
    queued t = b.queue ∧ t.mbFrame = b.mbFrame ∧ t.err = b.err ∧ t.trace = b.trace :=
  h ▸ ⟨rfl, rfl, rfl, rfl⟩

/-- The books after a HANDOFF (R152). -/
def Books.handedOver (b : Books) : Books :=
  match b.mbFlag, b.queue with
  | false, g :: rest => { b with queue := rest, mbFlag := true, mbFrame := g }
  | _, _ => b

/-- The books after a commit of the frame `f` (R150). -/
def Books.committed (f : FrameBuffer) (b : Books) : Books :=
  if b.queue.length = b.cfg.qcap - 1 then
    { b with queue := b.queue.tail ++ [f], err := true, trace := b.trace ++ [.overrun] }
  else { b with queue := b.queue ++ [f] }

theorem Books.handedOver_of_full {b : Books} (h : b.mbFlag = true) : b.handedOver = b := by
  unfold handedOver; split <;> simp_all

theorem Books.handedOver_of_empty {b : Books} (h : b.queue = []) : b.handedOver = b := by
  unfold handedOver; split <;> simp_all

theorem Books.handedOver_of_cons {b : Books} {g : FrameBuffer} {rest : List FrameBuffer} (hm : b.mbFlag = false)
    (hq : b.queue = g :: rest) : b.handedOver = { b with queue := rest, mbFlag := true, mbFrame := g } := by
  unfold handedOver; split <;> simp_all

/-- A second handoff finds nothing to move. -/
theorem Books.handedOver_handedOver (b : Books) : b.handedOver.handedOver = b.handedOver := by
  cases hm : b.mbFlag with
  | true => rw [handedOver_of_full hm, handedOver_of_full hm]
  | false =>
    cases hq : b.queue with
    | nil => rw [handedOver_of_empty hq, handedOver_of_empty hq]
    | cons g rest => rw [handedOver_of_cons hm hq]; rfl

theorem Books.committed_of_free {b : Books} (h : b.queue.length ≠ b.cfg.qcap - 1) :
    b.committed f = { b with queue := b.queue ++ [f] } := if_neg h

theorem Books.committed_of_full {b : Books} (h : b.queue.length = b.cfg.qcap - 1) :
    b.committed f = { b with queue := b.queue.tail ++ [f], err := true, trace := b.trace ++ [.overrun] } := if_pos h

/-- A handoff with a frame queued leaves the Mailbox full. -/
theorem Books.mbFlag_handedOver {b : Books} (h : b.queue ≠ []) : b.handedOver.mbFlag = true := by
  cases hm : b.mbFlag with
  | true => rw [handedOver_of_full hm, hm]
  | false =>
    obtain ⟨g, rest, hq⟩ := List.exists_cons_of_ne_nil h
    rw [handedOver_of_cons hm hq]

theorem Books.queue_committed_ne_nil (b : Books) : (b.committed f).queue ≠ [] := by
  unfold committed
  split <;> simp

/-- The books after a whole frame: what is due is handed over, the frame is committed, and a handoff ends the commit
(R124, R135, R150). -/
def Books.received (f : FrameBuffer) (b : Books) : Books := (b.handedOver.committed f).handedOver

theorem Books.mbFlag_received (b : Books) : (b.received f).mbFlag = true :=
  mbFlag_handedOver (queue_committed_ne_nil _)

/-- With the Mailbox full and room in the queue the frame is queued. -/
theorem Books.received_of_room {b : Books} (hm : b.mbFlag = true) (h : b.queue.length ≠ b.cfg.qcap - 1) :
    b.received f = { b with queue := b.queue ++ [f] } := by
  rw [received, handedOver_of_full hm, committed_of_free h]
  exact handedOver_of_full hm

/-- With Mailbox and queue full the oldest queued frame is lost. -/
theorem Books.received_of_overrun {b : Books} (hm : b.mbFlag = true) (h : b.queue.length = b.cfg.qcap - 1) :
    b.received f = { b with queue := b.queue.tail ++ [f], err := true, trace := b.trace ++ [.overrun] } := by
  rw [received, handedOver_of_full hm, committed_of_full h]
  exact handedOver_of_full hm

/-- With nothing stored the frame goes into the Mailbox. -/
theorem Books.received_of_empty {b : Books} (hm : b.mbFlag = false) (hq : b.queue = []) (h : 2 ≤ b.cfg.qcap) :
    b.received f = { b with queue := [], mbFlag := true, mbFrame := f } := by
  rw [received, handedOver_of_empty hq, committed_of_free (by rw [hq, List.length_nil]; omega), hq]
  exact handedOver_of_cons hm rfl

/-- With the Mailbox empty the oldest queued frame makes room for this one. -/
theorem Books.received_of_cons {b : Books} {g : FrameBuffer} {rest : List FrameBuffer} (hm : b.mbFlag = false)
    (hq : b.queue = g :: rest) (h : b.queue.length < b.cfg.qcap) :
    b.received f = { b with queue := rest ++ [f], mbFlag := true, mbFrame := g } := by
  rw [hq, List.length_cons] at h
  have hroom : rest.length ≠ b.cfg.qcap - 1 := by omega
  rw [received, handedOver_of_cons hm hq, committed_of_free hroom, handedOver_of_full rfl]

theorem books_handoff (hs : StorageShape s) (h : handoff s = .next t) : books t = (books s).handedOver := by
  obtain ⟨u, hu, ⟨hidle, rfl⟩ | ⟨g, hm, -, hq, rfl⟩⟩ := handoff_effect hs
  · rw [hu] at h
    cases h
    rcases hidle with hm | hq
    · exact (Books.handedOver_of_full (b := books t) hm).symm
    · exact (Books.handedOver_of_empty (b := books t) (hs.queued_eq_nil_iff.2 hq)).symm
  · rw [hu] at h
    cases h
    exact (Books.handedOver_of_cons (b := books s) hm hq).symm

theorem books_qCommit (hs : StorageShape s) (hq : 2 ≤ s.cfg.qcap) (hf : s.slots[s.head]? = some f) :
    books (qCommit s) = (books s).committed f := by
  have hqueued := hs.queued_qCommit hq hf
  unfold Books.committed
  split
  next hfull =>
    have hfull : (queued s).length = s.cfg.qcap - 1 := hfull
    have hnext := hs.full_iff.1 hfull
    rw [if_pos hfull, qCommit_of_full hnext] at hqueued
    rw [qCommit_of_full hnext, books, hqueued]
    rfl
  next hfree =>
    have hfree : ¬(queued s).length = s.cfg.qcap - 1 := hfree
    have hnext := mt hs.full_iff.2 hfree
    rw [if_neg hfree, qCommit_of_free hnext] at hqueued
    rw [qCommit_of_free hnext, books, hqueued]
    rfl

/-- A write of the head slot and of registers keeps the books. -/
theorem books_of_head_write (hs : StorageShape s) (hslots : t.slots = s.slots.set s.head f) (hhead : t.head = s.head)
    (htail : t.tail = s.tail)
    (hv : (t.cfg, t.mbFlag, t.mbFrame, t.err, t.trace) = (s.cfg, s.mbFlag, s.mbFrame, s.err, s.trace)) :
    books t = books s := by
  simp only [Prod.mk.injEq] at hv
  obtain ⟨hcfg, hflag, hframe, herr, htrace⟩ := hv
  simp only [books, hs.queued_of_head_write hslots hcfg hhead htail, hcfg, hflag, hframe, herr, htrace]

/-! ## Ticks of a run -/

theorem runInv_of_tick (h : RunInv s) (ht : exec (.tick l) s = .next t) : RunInv t := by
  obtain ⟨u, hu, hinv⟩ := exec_port_completes (i := .tick l) h rfl rfl
  rw [hu] at ht
  cases ht
  exact hinv

theorem runInv_of_runTicks (h : RunInv s) (ht : runTicks ls s = .next t) : RunInv t := by
  induction ls generalizing s with
  | nil => cases ht; exact h
  | cons l ls ih =>
    obtain ⟨u, hu, e⟩ := andThen_eq_next.1 ht
    exact ih (runInv_of_tick h hu) e

/-- Ticks off the level and short of the bound leave an open wait open, none or many. -/
theorem runTicks_stays (h : RunInv s) (hp : s.phase = .wait) {n : Nat} (hl : l ≠ s.wLevel)
    (hlt : elapsed s + n < s.wMax) :
    ∃ t, runTicks (List.replicate n l) s = .next t ∧ RunInv t ∧ elapsed t = elapsed s + n ∧
      t = { s with now := t.now, cd := t.cd, result := t.result } := by
  have hmax := h.legal.wMax
  cases n with
  | zero => exact ⟨s, rfl, h, rfl, rfl⟩
  | succ n =>
    have hrun := runTicks_openWait (ls := List.replicate (n + 1) l) h.config hp hmax (by simp)
      (fun x hx => (List.mem_replicate.1 hx).2 ▸ hl) (by rwa [List.length_replicate])
    rw [List.length_replicate] at hrun
    exact ⟨_, hrun, runInv_of_runTicks h hrun, elapsed_nowAfter rfl rfl rfl (by omega), rfl⟩

/-! ## The stages of a reception -/

/-- The break's wait is open, for `e` ticks. -/
structure BreakOpen (e : Nat) (t : State) : Prop where
  inv : RunInv t
  phase : t.phase = .wait
  rxState : t.rxState = .detectBreak
  elapsed : elapsed t = e

/-- The start-bit wait is open, for `e` ticks. -/
structure StartOpen (b : Books) (e : Nat) (t : State) : Prop where
  inv : RunInv t
  books : books t = b
  phase : t.phase = .wait
  cont : t.wCont = .startLow
  elapsed : elapsed t = e

/-- The head slot holds the bytes `bs`. -/
def Holds (bs : List Byte) (t : State) : Prop :=
  ∃ f, t.slots[t.head]? = some f ∧ f.count = bs.length ∧ f.bytes.take f.count = bs

/-- The start edge of a character is seen, after the bytes `bs`, and nothing is left to hand over. -/
structure Receiving (b : Books) (bs : List Byte) (t : State) : Prop where
  inv : RunInv t
  books : books t = b
  rxState : t.rxState = .readData
  phase : t.phase = .idle
  bitCnt : t.bitCnt = 0
  cd : t.cd = t.cfg.kMid
  handoffIdle : HandoffIdle t
  holds : Holds bs t

/-- The inter-byte wait is open, for `e` ticks, after the bytes `bs`. -/
structure GapOpen (b : Books) (bs : List Byte) (e : Nat) (t : State) : Prop where
  inv : RunInv t
  books : books t = b
  phase : t.phase = .wait
  cont : t.wCont = .ifsLow
  elapsed : elapsed t = e
  handoffIdle : HandoffIdle t
  holds : Holds bs t

theorem BreakOpen.wait {e : Nat} (h : BreakOpen e t) :
    t.wCont = .brkHigh ∧ t.wLevel = .high ∧ t.wMax = t.cfg.tBrk := by
  cases h.inv.mode with
  | detecting hp | reading hp => simp [h.phase] at hp
  | breakWait _ _ _ hc hl hm => exact ⟨hc, hl, hm⟩
  | startWait _ hr | ifsWait _ hr => exact absurd hr.rxState (by simp [h.rxState])

theorem StartOpen.wait {b : Books} {e : Nat} (h : StartOpen b e t) :
    t.wLevel = .low ∧ t.wMax = t.cfg.tStart ∧ t.rxState = .readData ∧ t.bitCnt = 0 ∧ headCount t = 0 := by
  cases h.inv.mode with
  | detecting hp | reading hp => simp [h.phase] at hp
  | breakWait _ _ _ hc | ifsWait _ _ hc => simp [h.cont] at hc
  | startWait _ hr _ hl hm hbit hbytes => exact ⟨hl, hm, hr.rxState, hbit, hr.bytesRead ▸ hbytes⟩

theorem GapOpen.wait {b : Books} {bs : List Byte} {e : Nat} (h : GapOpen b bs e t) :
    t.wLevel = .low ∧ t.wMax = t.cfg.tIfs ∧ t.rxState = .readData ∧ t.bitCnt = 0 ∧ t.bytesRead = headCount t := by
  cases h.inv.mode with
  | detecting hp | reading hp => simp [h.phase] at hp
  | breakWait _ _ _ hc | startWait _ _ hc => simp [h.cont] at hc
  | ifsWait _ hr _ hl hm hbit => exact ⟨hl, hm, hr.rxState, hbit, hr.bytesRead⟩

/-! ## The break -/

theorem breakOpened_sampledAt (m n c : Nat) (s : State) :
    breakOpened n (sampledAt m { s with lowCnt := c }) = breakOpened (m + n) s := by
  simp only [breakOpened, sampledAt, nowAfter, Nat.mod_add_mod, Nat.add_assoc]

/-- The state after a HANDOFF of the frame `g` (R152). -/
def moved (g : FrameBuffer) (s : State) : State :=
  { s with mbFrame := g, tail := nextIndex s.cfg s.tail, mbFlag := true }

/-- A low sample short of the break, with a frame to hand over, hands it over (R120, R122). -/
theorem callback_counts_and_moves {g : FrameBuffer} (n : Nat) (hr : s.rxState = .detectBreak) (hp : s.phase = .idle)
    (hb : s.lowCnt + 1 ≠ s.cfg.brkN) (hm : s.mbFlag = false) (hq : s.head ≠ s.tail) (hg : s.slots[s.tail]? = some g) :
    callback .low (sampledAt n s) = .next (sampledAt n { moved g s with lowCnt := s.lowCnt + 1 }) := by
  have hsample : sample .low (sampledAt n s) = .next (sampledAt n { s with lowCnt := s.lowCnt + 1 }) :=
    (sample_of_detectBreak (s := sampledAt n s) hr).trans (dbSample_low_of_short (s := sampledAt n s) hb)
  rw [callback_of_sample hsample, epilogue_of_idle (s := sampledAt n { s with lowCnt := s.lowCnt + 1 }) hp]
  exact handoff_of_moves (s := sampledAt n { s with lowCnt := s.lowCnt + 1 }) hm hq hg

/-- The low ticks of a break open its wait; on the way a frame may have been handed over. -/
theorem runTicks_opens_break (h : RunInv s) (hr : s.rxState = .detectBreak) (hp : s.phase = .idle) (hlow : s.lowCnt = 0)
    (hm : s.cfg.tBrk ≠ 0) :
    ∃ s', (s' = s ∨ handoff s = .next s') ∧
      runTicks (wave (fun _ => .low) (s.cd + (s.cfg.brkN - 1) * s.cfg.tpb)) s =
        .next (breakOpened (s.cd + (s.cfg.brkN - 1) * s.cfg.tpb) s') := by
  have hw := h.config
  have hcd := h.legal.cdPositive
  have hbrk := hw.one_le_brkN
  by_cases hidle : HandoffIdle s
  · exact ⟨s, .inl rfl, runTicks_break hw hm hr hp hcd hidle (by omega)⟩
  · obtain ⟨hflag, hne⟩ := not_or.1 hidle
    have hflag := Bool.eq_false_iff.2 hflag
    obtain ⟨g, hg⟩ := h.storage.tail_slot
    obtain hone | ⟨m, hbm⟩ : s.cfg.brkN = 1 ∨ ∃ m, s.cfg.brkN = m + 2 := by
      rcases Nat.lt_or_ge 1 s.cfg.brkN with h1 | h1
      · exact .inr ⟨s.cfg.brkN - 2, by omega⟩
      · exact .inl (by omega)
    · refine ⟨s, .inl rfl, ?_⟩
      rw [hone, Nat.sub_self, Nat.zero_mul, Nat.add_zero, runTicks_wave_fires hw hp hcd]
      exact callback_opens_break hm hr (by omega)
    · refine ⟨_, .inr (handoff_of_moves hflag hne hg), ?_⟩
      have hfirst := (runTicks_wave_fires hw hp hcd fun _ => .low).trans
        (callback_counts_and_moves s.cd hr hp (by omega) hflag hne hg)
      have hrest := runTicks_break (s := sampledAt s.cd { moved g s with lowCnt := s.lowCnt + 1 }) hw hm hr hp
        hw.one_le_tpb (.inl rfl) (m := m) (by simp only [sampledAt, moved]; omega)
      have hsum : s.cd + (s.cfg.brkN - 1) * s.cfg.tpb = s.cd + (s.cfg.tpb + m * s.cfg.tpb) := by
        rw [hbm, show m + 2 - 1 = m + 1 from rfl, Nat.succ_mul, Nat.add_comm (m * _)]
      rw [hsum, wave_add, runTicks_append_of_next hfirst]
      exact hrest.trans (congrArg _ (breakOpened_sampledAt s.cd _ _ (moved g s)))

/-- A break of `r` ticks more than `BRK_N` samples, short of its bound, leaves its wait open; and the handoff still due,
if any, is the one that was due before it. -/
theorem runTicks_reaches_breakOpen (h : RunInv s) (hr : s.rxState = .detectBreak) (hp : s.phase = .idle)
    (hlow : s.lowCnt = 0) {r : Nat} (hlt : r < s.cfg.tBrk) :
    ∃ t, runTicks (List.replicate (s.cd + (s.cfg.brkN - 1) * s.cfg.tpb + r) .low) s = .next t ∧ BreakOpen r t ∧
      (books t).handedOver = (books s).handedOver ∧ t.cfg = s.cfg := by
  obtain ⟨s', hs', hopen⟩ := runTicks_opens_break h hr hp hlow (by omega)
  have hinv := runInv_of_runTicks h hopen
  rw [← replicate_eq_wave] at hopen
  have hbooks : (books s').handedOver = (books s).handedOver ∧ s'.rxState = s.rxState ∧ s'.cfg = s.cfg := by
    rcases hs' with rfl | hmove
    · exact ⟨rfl, rfl, rfl⟩
    · rw [books_handoff h.storage hmove, Books.handedOver_handedOver]
      rcases handoff_cases hmove with ⟨-, rfl⟩ | ⟨g, -, -, -, rfl⟩ <;> exact ⟨rfl, rfl, rfl⟩
  obtain ⟨hbooks, hrx, hcfg⟩ := hbooks
  have he : elapsed (breakOpened (s.cd + (s.cfg.brkN - 1) * s.cfg.tpb) s') = 0 := elapsed_of_base_now rfl
  obtain ⟨t, ht, hinv', helapsed, hframe⟩ := runTicks_stays (l := .low) (n := r) hinv rfl nofun
    (by rw [he, Nat.zero_add]; exact hcfg ▸ hlt)
  refine ⟨t, ?_, ⟨hinv', by rw [hframe]; rfl, by rw [hframe]; exact hrx.trans hr, by rw [helapsed, he, Nat.zero_add]⟩,
    ?_, by rw [hframe]; exact hcfg⟩
  · rw [List.replicate_add, runTicks_append_of_next hopen, ht]
  · rw [hframe]; exact hbooks

/-- The state that the end of a wait leaves to its continuation, one tick later (R115). -/
def resumed (s : State) : State := { sampledAt 1 s with phase := .idle }

theorem endWait_of_continue {c : WaitCont} {r : WaitResult} (hc : t.wCont = c)
    (h : continueAt c l r (resumed t) = .next u) : endWait l r (sampledAt 1 t) = epilogue u :=
  congrArg (andThen · epilogue) ((congrArg (continueAt · l r (resumed t)) hc).trans h)

/-- The rise of the line ends the break's wait and opens the start-bit wait (R115, R124, R130). -/
theorem BreakOpen.rises {r : Nat} (h : BreakOpen r t) (hlt : r + 1 < t.cfg.tBrk) (hstart : t.cfg.tStart ≠ 0) :
    ∃ u, exec (.tick .high) t = .next u ∧ StartOpen (books t) 0 u ∧ u.cfg = t.cfg := by
  obtain ⟨hc, hl, hm⟩ := h.wait
  obtain ⟨f, hf, -⟩ := h.inv.storage.head_slot
  have hend := exec_tick_ends_ok (l := .high) h.inv.config h.phase h.inv.legal.wMax (by rw [h.elapsed, hm]; exact hlt)
    hl.symm
  have hentry := enterReadData_of_opens (s := resumed t) hf hstart
  have hu : exec (.tick .high) t = .next { entered f (resumed t) with
      wBase := nowAfter 1 t, cd := t.cfg.tpb, phase := .wait, wLevel := .low, wMax := t.cfg.tStart,
      wCont := .startLow } :=
    hend.trans ((endWait_of_continue hc hentry).trans (epilogue_of_wait rfl))
  refine ⟨_, hu, ⟨runInv_of_tick h.inv hu, ?_, rfl, rfl, elapsed_of_base_now rfl⟩, rfl⟩
  exact books_of_head_write (f := { f with count := 0 }) h.inv.storage rfl rfl rfl rfl

/-- High ticks leave the start-bit wait open. -/
theorem StartOpen.stays {b : Books} {e n : Nat} (h : StartOpen b e t) (hlt : e + n < t.cfg.tStart) :
    ∃ u, runTicks (List.replicate n .high) t = .next u ∧ StartOpen b (e + n) u ∧ u.cfg = t.cfg := by
  obtain ⟨hl, hm, -⟩ := h.wait
  obtain ⟨u, hu, hinv, he, hframe⟩ := runTicks_stays (l := .high) h.inv h.phase (by simp [hl])
    (by rw [h.elapsed, hm]; exact hlt)
  exact ⟨u, hu, ⟨hinv, by rw [hframe]; exact h.books, by rw [hframe]; exact h.phase, by rw [hframe]; exact h.cont,
    by rw [he, h.elapsed]⟩, by rw [hframe]⟩

/-- The first start edge aligns the next callback, and the callback it ends hands over what is due (R115, R131). -/
theorem StartOpen.falls {b : Books} {e : Nat} (h : StartOpen b e t) (hlt : e + 1 < t.cfg.tStart) :
    ∃ u, exec (.tick .low) t = .next u ∧ Receiving b.handedOver [] u ∧ u.cfg = t.cfg := by
  obtain ⟨hl, hm, hr, hbit, hcount⟩ := h.wait
  have hw := h.inv.config
  have hend := exec_tick_ends_ok (l := .low) hw h.phase h.inv.legal.wMax (by rw [h.elapsed, hm]; exact hlt) hl.symm
  have hst : StorageShape { resumed t with cd := t.cfg.kMid } := { h.inv.storage with }
  obtain ⟨u, hu, heffect⟩ := handoff_effect hst
  have htick : exec (.tick .low) t = .next u :=
    hend.trans ((endWait_of_continue h.cont rfl).trans ((epilogue_of_idle rfl).trans hu))
  have hbooks : Machine.books u = b.handedOver := by rw [books_handoff hst hu, ← h.books]; rfl
  obtain ⟨f, hf, hcount', -⟩ := h.inv.storage.head_slot
  have hholds : Holds [] t := ⟨f, hf, hcount'.symm.trans hcount, by simp [← hcount', hcount]⟩
  have hinv := runInv_of_tick h.inv htick
  obtain ⟨hidle, rfl⟩ | ⟨g, -, -, -, rfl⟩ := heffect
  · exact ⟨_, htick, ⟨hinv, hbooks, hr, rfl, hbit, rfl, hidle, hholds⟩, rfl⟩
  · exact ⟨_, htick, ⟨hinv, hbooks, hr, rfl, hbit, rfl, .inl rfl, hholds⟩, rfl⟩

/-! ## The characters and their gaps -/

/-- A character on the way is received (R136). -/
theorem Receiving.character {b : Books} {bs : List Byte} (h : Receiving b bs t) (hk : t.cfg.kMid + 1 ≤ t.cfg.tpb)
    (hifs : t.cfg.tIfs ≠ 0) (hroom : bs.length < t.cfg.fmax) (x : Byte) :
    ∃ u, runTicks (charWave t.cfg x) t = .next u ∧ GapOpen b (bs ++ [x]) 0 u ∧ u.cfg = t.cfg := by
  obtain ⟨f, hf, hcount, hbytes⟩ := h.holds
  obtain ⟨hlen, -⟩ := h.inv.storage.frames f (List.mem_of_getElem? hf)
  have hfit : f.count < f.bytes.length := by omega
  have hrun := runTicks_charWave x h.inv.config hk hifs h.rxState h.phase h.bitCnt h.cd h.handoffIdle hf hfit
  have hslot := h.inv.storage.head
  refine ⟨_, hrun, ⟨runInv_of_runTicks h.inv hrun, ?_, rfl, rfl, elapsed_of_base_now rfl, h.handoffIdle, ?_⟩, rfl⟩
  · refine Eq.trans ?_ h.books
    exact books_of_head_write (f := ⟨f.count + 1, f.bytes.set f.count x⟩) h.inv.storage rfl rfl rfl rfl
  · refine ⟨⟨f.count + 1, f.bytes.set f.count x⟩, ?_, ?_, ?_⟩
    · exact List.getElem?_set_self (by rw [h.inv.storage.slots]; exact hslot)
    · simp [hcount]
    · exact (take_succ_set hfit x).trans (by rw [hbytes])

/-- High ticks leave the inter-byte wait open. -/
theorem GapOpen.stays {b : Books} {bs : List Byte} {e n : Nat} (h : GapOpen b bs e t) (hlt : e + n < t.cfg.tIfs) :
    ∃ u, runTicks (List.replicate n .high) t = .next u ∧ GapOpen b bs (e + n) u ∧ u.cfg = t.cfg := by
  obtain ⟨hl, hm, -⟩ := h.wait
  obtain ⟨u, hu, hinv, he, hframe⟩ := runTicks_stays (l := .high) h.inv h.phase (by simp [hl])
    (by rw [h.elapsed, hm]; exact hlt)
  exact ⟨u, hu, ⟨hinv, by rw [hframe]; exact h.books, by rw [hframe]; exact h.phase, by rw [hframe]; exact h.cont,
    by rw [he, h.elapsed], by rw [hframe]; exact h.handoffIdle, by rw [hframe]; exact h.holds⟩, by rw [hframe]⟩

/-- A further start edge goes on to the next byte (R135). -/
theorem GapOpen.falls {b : Books} {bs : List Byte} {e : Nat} (h : GapOpen b bs e t) (hlt : e + 1 < t.cfg.tIfs)
    (hroom : bs.length < t.cfg.fmax) :
    ∃ u, exec (.tick .low) t = .next u ∧ Receiving b bs u ∧ u.cfg = t.cfg := by
  obtain ⟨hl, hm, hr, hbit, -⟩ := h.wait
  obtain ⟨f, hf, hcount, -⟩ := id h.holds
  have hend := exec_tick_ends_ok (l := .low) h.inv.config h.phase h.inv.legal.wMax (by rw [h.elapsed, hm]; exact hlt)
    hl.symm
  have hroom : f.count ≠ t.cfg.fmax := by omega
  have htick : exec (.tick .low) t = .next { resumed t with cd := t.cfg.kMid } :=
    hend.trans ((endWait_of_continue (l := .low) (r := .ok) h.cont (rdIfsResolve_of_continues hf hroom)).trans
      (epilogue_of_handoffIdle h.handoffIdle))
  exact ⟨_, htick, ⟨runInv_of_tick h.inv htick, h.books, hr, rfl, hbit, rfl, h.handoffIdle, h.holds⟩, rfl⟩

/-- The core looks for the next break, a full period from its last tick. -/
structure Detecting (t : State) : Prop where
  rxState : t.rxState = .detectBreak
  phase : t.phase = .idle
  lowCnt : t.lowCnt = 0
  cd : t.cd = t.cfg.tpb

theorem qCommit_keeps (s : State) :
    (qCommit s).cfg = s.cfg ∧ (qCommit s).phase = s.phase ∧ (qCommit s).cd = s.cd := by
  by_cases h : nextIndex s.cfg s.head = s.tail
  · rw [qCommit_of_full h]; exact ⟨rfl, rfl, rfl⟩
  · rw [qCommit_of_free h]; exact ⟨rfl, rfl, rfl⟩

/-- The tick that ends the closing gap commits the frame and hands over (R115, R135, R150). -/
theorem GapOpen.times_out {b : Books} {bs : List Byte} {e : Nat} (h : GapOpen b bs e t) (heq : e + 1 = t.cfg.tIfs)
    (hlen : t.cfg.fmin ≤ bs.length) :
    ∃ u f, exec (.tick .high) t = .next u ∧ f.count = bs.length ∧ f.bytes.take f.count = bs ∧
      Machine.books u = (b.committed f).handedOver ∧ Detecting u ∧ u.cfg = t.cfg := by
  obtain ⟨-, hm, -, -, hbytes⟩ := h.wait
  obtain ⟨f, hf, hcount, htake⟩ := h.holds
  have hhead : headCount t = bs.length := (headCount_of_some hf).trans hcount
  have hend := exec_tick_ends_fail h.inv.config h.phase h.inv.legal.wMax (by rw [h.elapsed, hm]; exact heq) .high
  have hst₀ : Stored (resumed t) := h.inv.stored.congr rfl
  have hst := (hst₀.qCommit (hhead ▸ hlen)).congr (t := enterDetectBreak (qCommit (resumed t))) rfl
  obtain ⟨hcfg, hphase, hcd⟩ := qCommit_keeps (resumed t)
  obtain ⟨u, hu, -⟩ := handoff_effect hst.storage
  have hread : t.cfg.fmin ≤ t.bytesRead := hbytes.trans hhead ▸ hlen
  have htick : exec (.tick .high) t = .next u :=
    hend.trans ((endWait_of_continue (l := .high) (r := .fail) h.cont (rdIfsResolve_of_commits hread)).trans
      ((epilogue_of_idle (s := enterDetectBreak (qCommit (resumed t))) hphase).trans hu))
  have hcommit : Machine.books (enterDetectBreak (qCommit (resumed t))) = b.committed f := by
    rw [← h.books]
    exact books_qCommit hst₀.storage h.inv.config.two_le_qcap hf
  refine ⟨u, f, htick, hcount, htake, by rw [books_handoff hst.storage hu, hcommit], ?_⟩
  obtain ⟨-, rfl⟩ | ⟨g, -, -, -, rfl⟩ := handoff_cases hu <;>
    exact ⟨⟨rfl, hphase, rfl, hcd.trans (congrArg Config.tpb hcfg.symm)⟩, hcfg⟩

/-! ## The frame -/

/-- The ticks of the characters `cs` and `b` after the first start edge, up to the end of the closing gap. -/
def charactersWave (c : Config) (b : Byte) : List (Byte × Nat) → List Level
  | [] => charWave c b ++ List.replicate c.tIfs .high
  | x :: cs => charWave c x.1 ++ (List.replicate x.2 .high ++ .low :: charactersWave c b cs)

theorem characters_eq_charactersWave (c : Config) (b : Byte) (cs : List (Byte × Nat)) :
    cs.flatMap (charThenGap c) ++ charThenGap c (b, c.tIfs) = .low :: charactersWave c b cs := by
  induction cs with
  | nil => rfl
  | cons x cs ih =>
    rw [List.flatMap_cons, List.append_assoc, ih]
    simp only [charThenGap, charactersWave, List.append_assoc, List.cons_append]

/-- From a start edge on, ideal characters are received one after the other, and the closing gap commits them. -/
theorem Receiving.characters {k : Books} (cs : List (Byte × Nat)) (b : Byte) {bs : List Byte} (h : Receiving k bs t)
    (hk : t.cfg.kMid + 1 ≤ t.cfg.tpb) (hifs : 1 ≤ t.cfg.tIfs) (hgaps : ∀ x ∈ cs, x.2 + 1 < t.cfg.tIfs)
    (hmin : t.cfg.fmin ≤ bs.length + cs.length + 1) (hmax : bs.length + cs.length + 1 ≤ t.cfg.fmax) :
    ∃ u f, runTicks (charactersWave t.cfg b cs) t = .next u ∧ f.count = bs.length + cs.length + 1 ∧
      f.bytes.take f.count = bs ++ (cs.map Prod.fst ++ [b]) ∧ Machine.books u = (k.committed f).handedOver ∧
      Detecting u ∧ u.cfg = t.cfg := by
  induction cs generalizing bs t with
  | nil =>
    obtain ⟨t₁, h₁, hgap, hcfg₁⟩ := h.character hk (by omega) (by simpa using hmax) b
    obtain ⟨t₂, h₂, hlast, hcfg₂⟩ := hgap.stays (n := t.cfg.tIfs - 1) (by rw [hcfg₁]; omega)
    obtain ⟨u, f, h₃, hcount, hbytes, hbooks, hdetect, hcfg₃⟩ := hlast.times_out (by rw [hcfg₂, hcfg₁]; omega)
      (by rw [hcfg₂, hcfg₁]; simpa using hmin)
    have hsplit : t.cfg.tIfs = t.cfg.tIfs - 1 + 1 := by omega
    refine ⟨u, f, ?_, by simpa using hcount, hbytes, hbooks, hdetect, by rw [hcfg₃, hcfg₂, hcfg₁]⟩
    rw [charactersWave, runTicks_append_of_next h₁, hsplit, List.replicate_succ', runTicks_append_of_next h₂,
      runTicks_singleton, h₃]
  | cons x cs ih =>
    obtain ⟨hx, hrest⟩ := List.forall_mem_cons.1 hgaps
    rw [List.length_cons] at hmin hmax
    obtain ⟨t₁, h₁, hgap, hcfg₁⟩ := h.character hk (by omega) (by omega) x.1
    obtain ⟨t₂, h₂, hgap, hcfg₂⟩ := hgap.stays (n := x.2) (by rw [hcfg₁]; omega)
    have hlen : (bs ++ [x.1]).length = bs.length + 1 := by simp
    have hcfg := hcfg₂.trans hcfg₁
    obtain ⟨t₃, h₃, hnext, hcfg₃⟩ := hgap.falls (by rw [hcfg]; omega) (by rw [hcfg, hlen]; omega)
    have hcfg := hcfg₃.trans hcfg
    obtain ⟨u, f, h₄, hcount, hbytes, hbooks, hdetect, hcfg₄⟩ := ih hnext (hcfg ▸ hk) (hcfg ▸ hifs) (hcfg ▸ hrest)
      (by rw [hcfg]; omega) (by rw [hcfg]; omega)
    refine ⟨u, f, ?_, by rw [hcount, hlen, List.length_cons]; omega, by simpa using hbytes, hbooks, hdetect,
      hcfg₄.trans hcfg⟩
    rw [charactersWave, runTicks_append_of_next h₁, runTicks_append_of_next h₂, runTicks, h₃, ← hcfg]
    exact h₄

/-- A whole frame goes through the books once: what is due is handed over, the frame is committed, and a handoff ends
the commit. -/
theorem runTicks_frameWave (h : RunInv s) (hr : s.rxState = .detectBreak) (hp : s.phase = .idle) (hlow : s.lowCnt = 0)
    (hk : s.cfg.kMid + 1 ≤ s.cfg.tpb) (hifs : 1 ≤ s.cfg.tIfs) {r d : Nat} (hrise : r + 1 < s.cfg.tBrk) (hd : 1 ≤ d)
    (hstart : d < s.cfg.tStart) {cs : List (Byte × Nat)} (hgaps : ∀ x ∈ cs, x.2 + 1 < s.cfg.tIfs)
    (hmin : s.cfg.fmin ≤ cs.length + 1) (hmax : cs.length + 1 ≤ s.cfg.fmax) (b : Byte) :
    ∃ t f, runTicks (frameWave s.cfg (s.cd + (s.cfg.brkN - 1) * s.cfg.tpb + r) d cs b) s = .next t ∧
      f.count = cs.length + 1 ∧ f.bytes.take f.count = cs.map Prod.fst ++ [b] ∧
      books t = (books s).received f ∧ Detecting t ∧ t.cfg = s.cfg := by
  obtain ⟨t₁, h₁, hbreak, hbooks, hcfg₁⟩ := runTicks_reaches_breakOpen h hr hp hlow (r := r) (by omega)
  obtain ⟨t₂, h₂, hsearch, hcfg₂⟩ := hbreak.rises (by rw [hcfg₁]; exact hrise) (by rw [hcfg₁]; omega)
  have hcfg := hcfg₂.trans hcfg₁
  obtain ⟨t₃, h₃, hsearch, hcfg₃⟩ := hsearch.stays (n := d - 1) (by rw [hcfg]; omega)
  have hcfg := hcfg₃.trans hcfg
  obtain ⟨t₄, h₄, hfirst, hcfg₄⟩ := hsearch.falls (by rw [hcfg]; omega)
  have hcfg := hcfg₄.trans hcfg
  obtain ⟨t, f, h₅, hcount, hbytes, hend, hdetect, hcfg₅⟩ := hfirst.characters cs b (hcfg ▸ hk) (hcfg ▸ hifs)
    (hcfg ▸ hgaps) (by rw [hcfg, List.length_nil]; omega) (by rw [hcfg, List.length_nil]; omega)
  have hsplit : d = d - 1 + 1 := by omega
  refine ⟨t, f, ?_, by simpa using hcount, hbytes, by rw [hend, hbooks, Books.received], hdetect, hcfg₅.trans hcfg⟩
  rw [frameWave, characters_eq_charactersWave, runTicks_append_of_next h₁, hsplit, List.replicate_succ,
    List.cons_append, runTicks, h₂, andThen, runTicks_append_of_next h₃, runTicks, h₄, ← hcfg]
  exact h₅

/-- Settles O36: the frame is received through the stages above, and what becomes of it is read off the books. -/
theorem idealFrameIsReceivedWhole : Obligations.IdealFrameIsReceivedWhole := by
  intro s r d cs b h hr hp hlow hk hifs hrise hd hstart hgaps hmin hmax
  obtain ⟨t, f, hrun, hcount, hbytes, hbooks, hdetect, hcfg⟩ :=
    runTicks_frameWave h hr hp hlow hk hifs hrise hd hstart hgaps hmin hmax b
  have hqcap := h.config.two_le_qcap
  have hbound : (books s).queue.length < (books s).cfg.qcap := h.storage.length_queued_lt
  have hread {k : Books} (hbk : (books s).received f = k) : books t = k := hbooks.trans hbk
  refine ⟨t, f, hrun, hcount, hbytes, fun hm hlen => ?_, fun hm hlen => ?_, fun hm hq => ?_, fun g rest hm hq => ?_,
    (congrArg Books.mbFlag hbooks).trans (Books.mbFlag_received _), hdetect.rxState, hdetect.phase, hdetect.lowCnt,
    hdetect.cd.trans (congrArg Config.tpb hcfg)⟩
  · exact books_fields (hread (Books.received_of_room hm (by change (queued s).length ≠ s.cfg.qcap - 1; omega)))
  · exact books_fields (hread (Books.received_of_overrun hm (by change (queued s).length = s.cfg.qcap - 1; omega)))
  · exact books_fields (hread (Books.received_of_empty hm hq hqcap))
  · exact books_fields (hread (Books.received_of_cons hm hq hbound))

end Sys2Proof.Machine
end
